-- ==== Sys2Proof/Word.lean ====
section
/-! DEFINITION. The words of ALSCTL's ports and registers (00_scope R4, 20_memory R40, 30_encoding R73, R80). -/

namespace Sys2Proof

/-- A sensor register word or a raw count, bit 0 least significant (00_scope R4). -/
abbrev Word := BitVec 16

/-- A command code: the 8-bit address of a sensor register (20_memory R40). -/
abbrev Code := BitVec 8

/-- The 64-bit argument or result part of a host word (30_encoding R80, R81). -/
abbrev Arg := BitVec 64

/-- A host command word, op in bits 71:64 and arg in bits 63:0 (30_encoding R80). -/
abbrev Command := BitVec 72

/-- A bus transaction in the notation of 30_encoding R73: command code in bits 23:16, word in bits 15:0. -/
abbrev BusRow := BitVec 24

/-- The transport's opaque error value (30_encoding R81, 93_implementation_defined U14). -/
abbrev TransportError := BitVec 32

end Sys2Proof
end

