-- ==== Sys2Proof/Config.lean ====
section
/-! DEFINITION. The value sets of the data model (10_state R12 to R25), the block's named parameters
(00_scope section 4, 92_eei_decisions D6, D7, D8, D22) and the one free value (the bits of a NaN). -/

namespace Sys2Proof

/-- The four gains (10_state R12), named by magnitude. -/
inductive Gain where
  | eighth | quarter | one | two
  deriving DecidableEq, Repr

/-- The six integration times in milliseconds (10_state R13). -/
inductive IntegrationTime where
  | ms25 | ms50 | ms100 | ms200 | ms400 | ms800
  deriving DecidableEq, Repr

/-- The four persistence counts (10_state R14). -/
inductive Persistence where
  | p1 | p2 | p4 | p8
  deriving DecidableEq, Repr

/-- The four power-saving modes (10_state R17). -/
inductive PowerSavingMode where
  | m1 | m2 | m3 | m4
  deriving DecidableEq, Repr

/-- A threshold event (10_state R22): NONE, HIGH, LOW or BOTH. -/
inductive ThresholdEvent where
  | evNone | evHigh | evLow | evBoth
  deriving DecidableEq, Repr

/-- A power status (10_state R25): PWR_ON, PWR_OFF, PWR_SAVE_1 to PWR_SAVE_4. -/
inductive PowerStatus where
  | on | off | save (mode : PowerSavingMode)
  deriving DecidableEq, Repr

/-- The auto-range verdict on the last sample (43_autorange_ops R190). -/
inductive Classification where
  | sweet | lowerEnd | upperEnd
  deriving DecidableEq, Repr

/-- The seven sensor registers (10_state R28). -/
inductive SensorReg where
  | conf | thrHi | thrLo | psm | als | white | int
  deriving DecidableEq, Repr

/-- One point where an implementation's `fpow` is not the correctly rounded power (00_scope R8, 92_eei_decisions
D6): at `x^n` it answers the binary64 `answer`, which counts where it is within one unit in the last place (log 5). A
list of such points spells every function that R8 allows. -/
structure PowDeviation where
  x : Arg
  n : Nat
  answer : Arg
  deriving DecidableEq, Repr

/-- The named parameters of the block (00_scope section 4). They are plain data that no step changes: a
statement about every state is about every value of them (92_eei_decisions D7: "proofs should quantify over
the tables where they can"; log 4). -/
structure Params where
  /-- GAIN_CODE of 1/8, 1/4, 1, 2. -/
  gain8th : BitVec 2
  gain4th : BitVec 2
  gain1 : BitVec 2
  gain2 : BitVec 2
  /-- IT_CODE of 25, 50, 100, 200, 400, 800 ms. -/
  it25 : BitVec 4
  it50 : BitVec 4
  it100 : BitVec 4
  it200 : BitVec 4
  it400 : BitVec 4
  it800 : BitVec 4
  /-- PERS_CODE of 1, 2, 4, 8. -/
  pers1 : BitVec 2
  pers2 : BitVec 2
  pers4 : BitVec 2
  pers8 : BitVec 2
  /-- PSM_CODE of modes 1 to 4. -/
  psm1 : BitVec 2
  psm2 : BitVec 2
  psm3 : BitVec 2
  psm4 : BitVec 2
  /-- MAX_RESOLUTION_LUX as the binary64 that `lit` gives. -/
  maxResolutionLux : Arg
  /-- MIN_OVERFLOW_LUX as the binary64 that `lit` gives. -/
  minOverflowLux : Arg
  /-- PS_OVERHEAD_MS of modes 1 to 4, milliseconds. -/
  overhead1 : Nat
  overhead2 : Nat
  overhead3 : Nat
  overhead4 : Nat
  /-- Where `fpow` differs from the correctly rounded power. -/
  powDev : List PowDeviation
  deriving DecidableEq, Repr

/-- FREE VALUE (log 6): the sign and the 52 fraction bits of a NaN result, which neither the spec nor the IEEE
rules it points to (42_illuminance_ops R173) fix; a function of the operand of the operation that answers it. -/
opaque Config.nanBits : Arg → BitVec 53

end Sys2Proof
end

