-- ==== Sys2Proof/Machine/Numerics.lean ====
section
/-! DEFINITION. The numerics record NUM (00_scope R8): IEEE 754 binary64, round to nearest even for every single
operation. A finite number is held exactly: a sign and a magnitude counted in units of 2^-1074, the smallest
positive binary64, so that exact intermediate results are whole numbers and every rounding is one function. -/

namespace Sys2Proof.Machine

/-- A binary64 value. `fin neg mag` is `±mag · 2^-1074`; `fin true 0` is the negative zero. -/
inductive Num where
  | nan
  | inf (neg : Bool)
  | fin (neg : Bool) (mag : Nat)
  deriving DecidableEq, Repr

/-! ### Rounding -/

/-- `m / 2^s` rounded to the nearest whole number, ties to even. -/
def roundHalfEven (m s : Nat) : Nat :=
  let q := m / 2 ^ s
  let r := m % 2 ^ s
  if 2 ^ s < 2 * r ∨ (2 * r = 2 ^ s ∧ q % 2 = 1) then q + 1 else q

/-- How many low bits of `m` a binary64 with the value `m · 2^-(1074+k)` cannot hold: all but 53 significant
ones, and everything below 2^-1074. -/
def droppedBits (m k : Nat) : Nat := max (m.log2 - 52) k

/-- The magnitude (in units of 2^-1074) of the binary64 nearest to `m · 2^-(1074+k)`, the exponent range taken
as unbounded above. -/
def roundMag (m k : Nat) : Nat :=
  roundHalfEven m (droppedBits m k) * 2 ^ (droppedBits m k - k)

/-- The magnitude that stands for an overflow: 2^1024 in units of 2^-1074. -/
def overflowMag : Nat := 2 ^ 2098

/-- A rounded magnitude as a number: 2^1024 and above is an infinity. -/
def numOfMag (neg : Bool) (mag : Nat) : Num :=
  if mag < overflowMag then .fin neg mag else .inf neg

/-- The exact value `±m · 2^-(1074+k)` rounded once. -/
def roundNum (neg : Bool) (m k : Nat) : Num := numOfMag neg (roundMag m k)

/-! ### The 64 bits -/

/-- The 63 bits below the sign of a magnitude. A magnitude of 53 significant bits `mant · 2^e` has the biased
exponent and the fraction that `e · 2^52 + mant` spells; a subnormal has `e = 0`. -/
def magBits (mag : Nat) : Nat :=
  (mag.log2 - 52) * 2 ^ 52 + mag / 2 ^ (mag.log2 - 52)

/-- A NaN whose sign and fraction are the free value (log 6); a fraction of 0 would be an infinity, so 1 stands
for it. -/
def nanWord (free : BitVec 53) : Arg :=
  let fraction := free.extractLsb' 0 52
  free.extractLsb' 52 1 ++ 0x7FF#11 ++ (if fraction = 0#52 then 1#52 else fraction)

/-- The binary64 word of a number; `operand` is the operand of the operation that answers it, which a NaN's
free bits may depend on. -/
def numBits (operand : Arg) : Num → Arg
  | .fin neg mag => BitVec.ofBool neg ++ BitVec.ofNat 63 (magBits mag)
  | .inf neg => BitVec.ofBool neg ++ 0x7FF0000000000000#63
  | .nan => nanWord (Config.nanBits operand)

/-- The number that 64 bits denote, sign in bit 63 (30_encoding R82 form F). -/
def numOfBits (w : Arg) : Num :=
  let e := (w.extractLsb' 52 11).toNat
  let f := (w.extractLsb' 0 52).toNat
  if e = 2047 then (if f = 0 then .inf w.msb else .nan)
  else if e = 0 then .fin w.msb f
  else .fin w.msb ((2 ^ 52 + f) * 2 ^ (e - 1))

/-- Neither a NaN nor an infinity. -/
def numFinite : Num → Bool
  | .fin _ _ => true
  | _ => false

/-! ### Exact conversions -/

/-- The signed magnitude of a finite number, in units of 2^-1074. -/
def signedMag (neg : Bool) (mag : Nat) : Int := if neg then -(mag : Int) else mag

/-- `of_int` of a natural number below 2^53, exact (00_scope R8). -/
def numOfNat (n : Nat) : Num := .fin false (n * 2 ^ 1074)

/-- `lit` of the decimal `p / q`: the binary64 nearest to it (00_scope R8). The quotient is taken to 127 bits
below 2^-1074 and its last bit records whether it was exact, so it rounds as the exact quotient does. -/
def litNum (p q : Nat) : Num :=
  let scaled := p * 2 ^ 1200
  let sticky := if scaled % q = 0 then 0 else 1
  roundNum false (2 * (scaled / q) + sticky) 127

/-! ### The operations -/

/-- `fmul` (00_scope R8). -/
def fmul : Num → Num → Num
  | .nan, _ => .nan
  | _, .nan => .nan
  | .inf a, .inf b => .inf (a != b)
  | .inf a, .fin b m => if m = 0 then .nan else .inf (a != b)
  | .fin a m, .inf b => if m = 0 then .nan else .inf (a != b)
  | .fin a m, .fin b n => roundNum (a != b) (m * n) 1074

/-- `fadd` (00_scope R8). An exact sum of zero is +0 unless both operands are negative zeros. -/
def fadd : Num → Num → Num
  | .nan, _ => .nan
  | _, .nan => .nan
  | .inf a, .inf b => if a = b then .inf a else .nan
  | .inf a, .fin _ _ => .inf a
  | .fin _ _, .inf b => .inf b
  | .fin a m, .fin b n =>
    let v := signedMag a m + signedMag b n
    if v = 0 then .fin (a && b) 0 else roundNum (decide (v < 0)) v.natAbs 0

/-- Change of sign, exact. -/
def fneg : Num → Num
  | .nan => .nan
  | .inf a => .inf (!a)
  | .fin a m => .fin (!a) m

/-- `fsub` (00_scope R8). -/
def fsub (x y : Num) : Num := fadd x (fneg y)

/-- `fgt(a, b)`: strictly greater; false when either is a NaN (00_scope R8). -/
def fgt : Num → Num → Bool
  | .nan, _ => false
  | _, .nan => false
  | .inf a, .inf b => !a && b
  | .inf a, .fin _ _ => !a
  | .fin _ _, .inf b => b
  | .fin a m, .fin b n => decide (signedMag b n < signedMag a m)

/-! ### The power, the one operation whose rounding is a parameter (93_implementation_defined U9) -/

/-- The value of an answer in units of 2^-1074, an infinity standing at ±2^1024, the first value past the range; a NaN
has none (log 5). -/
def cappedMag : Num → Option Int
  | .fin neg mag => some (signedMag neg mag)
  | .inf neg => some (signedMag neg overflowMag)
  | .nan => none

/-- `c` lies within one unit in the last place of the exact value `m · 2^-(1074+k)`, the unit being that of the exact
value's own binade and never below 2^-1074 (log 5). -/
def withinUlp (c m : Int) (k : Nat) : Bool := decide ((c * 2 ^ k - m).natAbs ≤ 2 ^ droppedBits m.natAbs k)

/-- The sign of the n-th power of a number of sign `neg`. -/
def powSign (neg : Bool) (n : Nat) : Bool := neg && n % 2 == 1

/-- The default power of `±mag · 2^-1074`: the binary64 nearest to the exact one (00_scope R8). -/
def powNearest (neg : Bool) (mag n : Nat) : Num := roundNum (powSign neg n) (mag ^ n) (1074 * (n - 1))

/-- An answer that 00_scope R8 allows for the power: within one unit in the last place of the exact one. -/
def powAllowed (answer : Num) (neg : Bool) (mag n : Nat) : Bool :=
  match cappedMag answer with
  | some c => withinUlp c (signedMag (powSign neg n) (mag ^ n)) (1074 * (n - 1))
  | none => false

/-- What the parameter lists for the power `x^n`, if anything. -/
def powListed (p : Params) (x : Num) (n : Nat) : Option Num :=
  (p.powDev.find? fun d => decide (d.x = numBits 0#64 x ∧ d.n = n)).map fun d => numOfBits d.answer

/-- `fpow(x, n)`, n in 2, 3, 4 (00_scope R8): the listed answer where the parameter lists one that R8 allows, else the
nearest binary64. Its one user tests for NaN and infinity first (42_illuminance_ops R173). -/
def fpow (p : Params) (x : Num) (n : Nat) : Num :=
  match x with
  | .fin neg mag =>
    match powListed p x n with
    | some answer => if powAllowed answer neg mag n then answer else powNearest neg mag n
    | none => powNearest neg mag n
  | .inf neg => .inf (powSign neg n)
  | .nan => .nan

end Sys2Proof.Machine
end

