-- ==== Sys2Proof/Machine/Values.lean ====
section
/-! DEFINITION. The value sets as ladders, indices and numbers (10_state R12 to R17, 30_encoding R82,
43_autorange_ops R195), the code tables read from the parameters (30_encoding R64), and the default parameter
values (00_scope section 4). -/

namespace Sys2Proof.Machine

/-! ### The value sets in order of magnitude -/

/-- The gain ladder 1/8, 1/4, 1, 2 (43_autorange_ops R195); an index of form E is a place in it (30_encoding R82). -/
def gainLadder : List Gain := [.eighth, .quarter, .one, .two]

/-- The integration-time ladder 25, 50, 100, 200, 400, 800 ms (43_autorange_ops R195). -/
def itLadder : List IntegrationTime := [.ms25, .ms50, .ms100, .ms200, .ms400, .ms800]

/-- The persistence counts 1, 2, 4, 8 (30_encoding R82). -/
def persLadder : List Persistence := [.p1, .p2, .p4, .p8]

/-- The power-saving modes 1, 2, 3, 4. -/
def psmLadder : List PowerSavingMode := [.m1, .m2, .m3, .m4]

/-- The events by their own code 0 to 3 (30_encoding R69, R83 form ev). -/
def eventLadder : List ThresholdEvent := [.evNone, .evHigh, .evLow, .evBoth]

/-- A gain in eighths, so that it is a whole number. -/
def gainEighths : Gain → Nat
  | .eighth => 1 | .quarter => 2 | .one => 8 | .two => 16

/-- An integration time in milliseconds. -/
def itMillis : IntegrationTime → Nat
  | .ms25 => 25 | .ms50 => 50 | .ms100 => 100 | .ms200 => 200 | .ms400 => 400 | .ms800 => 800

/-- A persistence as its count. -/
def persCount : Persistence → Nat
  | .p1 => 1 | .p2 => 2 | .p4 => 4 | .p8 => 8

/-- A power-saving mode as its number. -/
def psmNumber : PowerSavingMode → Nat
  | .m1 => 1 | .m2 => 2 | .m3 => 3 | .m4 => 4

/-- The value after `x` on a ladder; none at its top or off it (43_autorange_ops R195). -/
def nextAfter {α : Type} [DecidableEq α] (x : α) : List α → Option α
  | [] => none
  | [_] => none
  | a :: b :: rest => if a = x then some b else nextAfter x (b :: rest)

/-- `up` of the gain ladder (43_autorange_ops R195). -/
def gainUp (g : Gain) : Option Gain := nextAfter g gainLadder

/-- `down` of the gain ladder. -/
def gainDown (g : Gain) : Option Gain := nextAfter g gainLadder.reverse

/-- `up` of the integration-time ladder. -/
def itUp (t : IntegrationTime) : Option IntegrationTime := nextAfter t itLadder

/-- `down` of the integration-time ladder. -/
def itDown (t : IntegrationTime) : Option IntegrationTime := nextAfter t itLadder.reverse

/-- MAX_GAIN = 2 in eighths, the maximum of the value set (00_scope section 4). -/
def maxGainEighths : Nat := 16

/-- MAX_INTEGRATION_TIME = 800 ms (00_scope section 4). -/
def maxIntegrationMillis : Nat := 800

/-- `gain_ratio` = MAX_GAIN / g, an exact quotient (42_illuminance_ops R170). -/
def gainRatio (g : Gain) : Nat := maxGainEighths / gainEighths g

/-- `it_ratio` = MAX_INTEGRATION_TIME / t, an exact quotient (42_illuminance_ops R170). -/
def itRatio (t : IntegrationTime) : Nat := maxIntegrationMillis / itMillis t

/-! ### The sensor registers -/

/-- The command code of a sensor register (10_state R28). -/
def regCode : SensorReg → Code
  | .conf => 0x00#8 | .thrHi => 0x01#8 | .thrLo => 0x02#8 | .psm => 0x03#8
  | .als => 0x04#8 | .white => 0x05#8 | .int => 0x06#8

/-! ### The code tables, value to code (30_encoding R64) -/

/-- GAIN_CODE. -/
def gainCode (p : Params) : Gain → BitVec 2
  | .eighth => p.gain8th | .quarter => p.gain4th | .one => p.gain1 | .two => p.gain2

/-- IT_CODE: looked up, never computed from the value (40_codec_ops R102). -/
def itCode (p : Params) : IntegrationTime → BitVec 4
  | .ms25 => p.it25 | .ms50 => p.it50 | .ms100 => p.it100
  | .ms200 => p.it200 | .ms400 => p.it400 | .ms800 => p.it800

/-- PERS_CODE. -/
def persCode (p : Params) : Persistence → BitVec 2
  | .p1 => p.pers1 | .p2 => p.pers2 | .p4 => p.pers4 | .p8 => p.pers8

/-- PSM_CODE. -/
def psmCode (p : Params) : PowerSavingMode → BitVec 2
  | .m1 => p.psm1 | .m2 => p.psm2 | .m3 => p.psm3 | .m4 => p.psm4

/-- BOOL_CODE, fixed: false 0, true 1 (92_eei_decisions D7). -/
def boolCode (b : Bool) : BitVec 1 := BitVec.ofBool b

/-- The event field's own code, fixed: NONE 00, HIGH 01, LOW 10, BOTH 11 (30_encoding R69). -/
def eventCode : ThresholdEvent → BitVec 2
  | .evNone => 0b00#2 | .evHigh => 0b01#2 | .evLow => 0b10#2 | .evBoth => 0b11#2

/-- PS_OVERHEAD_MS (00_scope section 4). -/
def psOverheadMs (p : Params) : PowerSavingMode → Nat
  | .m1 => p.overhead1 | .m2 => p.overhead2 | .m3 => p.overhead3 | .m4 => p.overhead4

/-! ### The default parameter values -/

/-- PRESUMED (log 4): the defaults of 00_scope section 4 and 30_encoding R64, which the spec marks as general
knowledge and not from its source. -/
def defaultParams : Params where
  gain8th := 0b10#2
  gain4th := 0b11#2
  gain1 := 0b00#2
  gain2 := 0b01#2
  it25 := 0b1100#4
  it50 := 0b1000#4
  it100 := 0b0000#4
  it200 := 0b0001#4
  it400 := 0b0010#4
  it800 := 0b0011#4
  pers1 := 0b00#2
  pers2 := 0b01#2
  pers4 := 0b10#2
  pers8 := 0b11#2
  psm1 := 0b00#2
  psm2 := 0b01#2
  psm3 := 0b10#2
  psm4 := 0b11#2
  maxResolutionLux := 0x3F6D7DBF487FCB92#64
  minOverflowLux := 0x406D800000000000#64
  overhead1 := 500
  overhead2 := 1000
  overhead3 := 2000
  overhead4 := 4000
  powDev := []

end Sys2Proof.Machine
end

