-- ==== Sys2Proof/Machine/State.lean ====
section
/-! DEFINITION. The whole state of the model as plain data: the block's twelve fields (10_state R10), its
sequencing state (R26, R27), what the sensor's registers are known to hold (R28, R36), the ports, and the
parameters; and its value at reset (R37). -/

namespace Sys2Proof.Machine

/-! ### Ports -/

/-- The status of a response (30_encoding R81). -/
inductive Status where
  | ok | invalidValue | transportError | noData | illegalCommand | noEvent | empty | infinite
  deriving DecidableEq, Repr

/-- A response (30_encoding R81). -/
structure Response where
  status : Status
  result : Arg
  deriving DecidableEq, Repr

/-- The four errors an operation can end with (60_exceptions R220). -/
inductive OpError where
  | invalidValue
  | transport (t : TransportError)
  | noData
  | illegalCommand
  deriving DecidableEq, Repr

/-- What the transport answers to a transaction (20_memory R41): `ok` or `err(t)`. The word of an `ok` is the
word read; a write's `ok` carries no word and the block ignores it (log 12). -/
inductive Answer where
  | ok (w : Word)
  | err (t : TransportError)
  deriving DecidableEq, Repr

/-- A bus request (20_memory R42, R43). -/
inductive Request where
  | read (reg : SensorReg)
  | write (reg : SensorReg) (w : Word)
  deriving DecidableEq, Repr

/-- An entry of the bus trace (20_memory R54): a read with its answer, or a write with `none` for `ok` and the
transport's error otherwise. -/
inductive BusEvent where
  | read (reg : SensorReg) (answer : Answer)
  | write (reg : SensorReg) (w : Word) (error : Option TransportError)
  deriving DecidableEq, Repr

/-! ### Sequencing state -/

/-- Where the operation in flight goes on when its outstanding transaction is answered `ok` (10_state R26, R27,
43_autorange_ops R198). -/
inductive Resume where
  /-- A setter's or step primitive's one write, or SET.POWER's last: respond OK. -/
  | respond
  /-- SET.POWER after its CONF write: the power-saving part with these targets (41_device_state_ops R137). -/
  | powerSaving (enable : Bool) (mode : PowerSavingMode)
  /-- SAMPLE's ALS read; whether the white channel is read after it (41_device_state_ops R142). -/
  | sampleAls (readWhite : Bool)
  /-- SAMPLE's white read; whether the ALS channel was read before it. -/
  | sampleWhite (readAls : Bool)
  /-- CALIBRATE's read of 0x04: state SAMPLING of 43_autorange_ops R198. -/
  | calibrateSampling
  /-- CALIBRATE's write of 0x00: state ADJUSTING of 43_autorange_ops R198. -/
  | calibrateAdjusting
  /-- POLL.EVENT's read of 0x06 (44_event_ops R210). -/
  | pollEvent
  deriving DecidableEq, Repr

/-- The sequencing state: idle, or an operation in flight with one transaction outstanding (10_state R26). -/
inductive Sequencer where
  | idle
  | waiting (request : Request) (resume : Resume)
  deriving DecidableEq, Repr

/-! ### The state -/

/-- The record S of 10_state R10. `none` is UNSET (R11). -/
structure DeviceState where
  gain : Gain
  it : IntegrationTime
  pers : Persistence
  intEn : Bool
  sd : Bool
  psm : PowerSavingMode
  psmEn : Bool
  thrHi : Option Word
  thrLo : Option Word
  als : Option Word
  white : Option Word
  event : Option ThresholdEvent
  deriving DecidableEq, Repr

/-- What one sensor register is known to hold: its command code and its word (log 7). -/
abbrev SensorCell := Nat × Word

/-- The machine. -/
structure State where
  /-- The block's own registers. -/
  dev : DeviceState
  /-- Whether an operation is in flight, and where it stands. -/
  seq : Sequencer
  /-- The sensor registers whose content is known, by rising command code; an unlisted one is unknown. -/
  sensor : List SensorCell
  /-- Command words presented and not yet accepted, oldest first. -/
  cmds : List Command
  /-- The transport's answers to the transactions to come, in order (20_memory R47). -/
  answers : List Answer
  /-- The reset input (70_reset_and_hazards R250). -/
  resetIn : Bool
  /-- The responses given, oldest first. -/
  responses : List Response
  /-- The bus trace, oldest first (20_memory R54). -/
  trace : List BusEvent
  /-- The parameters, which no step changes. -/
  cfg : Params
  deriving DecidableEq, Repr

/-- Reasons the machine stops. -/
inductive Fault where
  /-- Raised by `step` when the outstanding request is none of the seven transactions the block can issue
  (20_memory R44, 30_encoding R72 (c), (d)), a state no run reaches. Safe: the model stops where the spec
  describes no behaviour (log 11). -/
  | unissuableTransaction
  deriving DecidableEq, Repr

/-- Reasons an instruction has no effect to model. -/
inductive Refusal where
  /-- Raised by `exec`'s arm of an instruction that has no meaning yet. -/
  | notModelled (mnemonic : String)
  /-- Raised by the meaning of a bus row when that transaction is not the one outstanding: the block did not
  issue it, so nothing answers it (20_memory R44, R50; 93_implementation_defined U12 "refuse"). Safe (log 8). -/
  | transactionNotIssued
  deriving DecidableEq, Repr

/-- The record S after reset (10_state R37). -/
def resetDevice : DeviceState where
  gain := .one
  it := .ms100
  pers := .p1
  intEn := false
  sd := false
  psm := .m1
  psmEn := false
  thrHi := none
  thrLo := none
  als := none
  white := none
  event := none

/-- The machine right after reset: S as 10_state R37 says, the sequencer idle, the sensor's registers unknown,
nothing on the ports (log 2, log 3), the default parameters (log 4). -/
def State.reset : State where
  dev := resetDevice
  seq := .idle
  sensor := []
  cmds := []
  answers := []
  resetIn := false
  responses := []
  trace := []
  cfg := defaultParams

end Sys2Proof.Machine
end

