-- ==== Sys2Proof/Machine/Operands.lean ====
section
/-! DEFINITION. The operand forms, the register fields and images, and the result forms: every encoding between a
value of the data model and the bits of a port or a register (30_encoding R61 to R71, R82, R83). -/

namespace Sys2Proof.Machine

/-! ### Register fields (30_encoding R61 to R63) -/

/-- A packed field: the bit offset of its lowest bit and its width (30_encoding R61). -/
structure Field where
  offset : Nat
  width : Nat
  deriving DecidableEq, Repr

def fieldGain : Field := ⟨11, 2⟩
def fieldIt : Field := ⟨6, 4⟩
def fieldPers : Field := ⟨4, 2⟩
def fieldIntEn : Field := ⟨1, 1⟩
def fieldSd : Field := ⟨0, 1⟩
def fieldPsm : Field := ⟨1, 2⟩
def fieldPsmEn : Field := ⟨0, 1⟩
def fieldEvent : Field := ⟨14, 2⟩

/-- `mask = 2^width - 1` (30_encoding R61). -/
def fieldMask (f : Field) : Word := BitVec.ofNat 16 (2 ^ f.width - 1)

/-- `bits = (numeric_code & mask) << offset` (30_encoding R62). -/
def encodeField {n : Nat} (f : Field) (code : BitVec n) : Word :=
  (code.setWidth 16 &&& fieldMask f) <<< f.offset

/-- `code = (w >> offset) & mask` (30_encoding R63), as wide as the field. -/
def fieldCode (f : Field) (w : Word) : BitVec f.width :=
  ((w >>> f.offset) &&& fieldMask f).setWidth f.width

/-- The enumerator of a set whose table code is `code`, if there is one (30_encoding R63). -/
def valueOfCode {α : Type} {n : Nat} (table : α → BitVec n) (values : List α) (code : BitVec n) : Option α :=
  values.find? fun v => decide (table v = code)

/-- Decode of the gain field (30_encoding R63). -/
def decodeGain (p : Params) (w : Word) : Option Gain :=
  valueOfCode (gainCode p) gainLadder (fieldCode fieldGain w)

/-- Decode of the integration-time field; the ten undefined codes have no value (30_encoding R63, R72 (b)). -/
def decodeIt (p : Params) (w : Word) : Option IntegrationTime :=
  valueOfCode (itCode p) itLadder (fieldCode fieldIt w)

/-- Decode of the persistence field. -/
def decodePers (p : Params) (w : Word) : Option Persistence :=
  valueOfCode (persCode p) persLadder (fieldCode fieldPers w)

/-- Decode of the power-saving mode field. -/
def decodePsm (p : Params) (w : Word) : Option PowerSavingMode :=
  valueOfCode (psmCode p) psmLadder (fieldCode fieldPsm w)

/-- Decode of a one-bit field: is it BOOL_CODE(true)? -/
def decodeFlag (f : Field) (w : Word) : Bool :=
  decide ((fieldCode f w).setWidth 1 = boolCode true)

/-- `decode_event`: the two bits 15:14 by the fixed table; it cannot fail (30_encoding R69). -/
def decodeEvent (w : Word) : ThresholdEvent :=
  match w.getLsbD 15, w.getLsbD 14 with
  | false, false => .evNone
  | false, true => .evHigh
  | true, false => .evLow
  | true, true => .evBoth

/-! ### Register images (30_encoding R66 to R68) -/

/-- `conf_word(S)`: all five fields of CONF at once (30_encoding R66). -/
def confImage (p : Params) (d : DeviceState) : Word :=
  encodeField fieldGain (gainCode p d.gain) ||| encodeField fieldIt (itCode p d.it)
    ||| encodeField fieldPers (persCode p d.pers) ||| encodeField fieldIntEn (boolCode d.intEn)
    ||| encodeField fieldSd (boolCode d.sd)

/-- `psm_word(S)` (30_encoding R67). -/
def psmImage (p : Params) (d : DeviceState) : Word :=
  encodeField fieldPsm (psmCode p d.psm) ||| encodeField fieldPsmEn (boolCode d.psmEn)

/-- `word(reg, S)` of 41_device_state_ops R129: the whole image of a register the block writes. A threshold that
is UNSET has none, nor have the registers the block only reads (10_state R28). -/
def shadowImage (p : Params) (d : DeviceState) : SensorReg → Option Word
  | .conf => some (confImage p d)
  | .psm => some (psmImage p d)
  | .thrHi => d.thrHi
  | .thrLo => d.thrLo
  | .als => none
  | .white => none
  | .int => none

/-! ### Operands to values (30_encoding R65, R70, R82) -/

/-- `encode_thr(n) = n mod 65536` for any integer (30_encoding R65). -/
def truncate16 (n : Int) : Word := BitVec.ofInt 16 n

/-- Form E: the gain at an index (30_encoding R82). -/
def gainAt (index : Nat) : Option Gain := gainLadder[index]?

/-- Form E: the integration time at an index. -/
def itAt (index : Nat) : Option IntegrationTime := itLadder[index]?

/-- Form E: the persistence at an index. -/
def persAt (index : Nat) : Option Persistence := persLadder[index]?

/-- REL_TOL = 10^-9 as its denominator (00_scope section 4). -/
def relTolDenominator : Nat := 10 ^ 9

/-- `close(x, v)` of 30_encoding R70, in exact arithmetic, `x` at its exact value and both in units of 2^-1074.
A NaN or an infinity is close to nothing. -/
def closeTo (x : Num) (v : Nat) : Bool :=
  match x with
  | .fin neg mag => decide (relTolDenominator * (signedMag neg mag - (v : Int)).natAbs ≤ max mag v)
  | _ => false

/-- `x = v` exactly, as numbers (30_encoding R70). -/
def equalTo (x : Num) (v : Nat) : Bool :=
  match x with
  | .fin neg mag => decide (signedMag neg mag = (v : Int))
  | _ => false

/-- A gain in units of 2^-1074. -/
def gainUnits (g : Gain) : Nat := gainEighths g * 2 ^ 1071

/-- A whole number in units of 2^-1074. -/
def natUnits (n : Nat) : Nat := n * 2 ^ 1074

/-- `match_gain` (30_encoding R70). -/
def matchGain (x : Arg) : Option Gain :=
  gainLadder.find? fun g => closeTo (numOfBits x) (gainUnits g)

/-- `match_it` (30_encoding R70). -/
def matchIt (x : Arg) : Option IntegrationTime :=
  itLadder.find? fun t => closeTo (numOfBits x) (natUnits (itMillis t))

/-- `match_pers`: exact equality, no tolerance (30_encoding R70). -/
def matchPers (x : Arg) : Option Persistence :=
  persLadder.find? fun c => equalTo (numOfBits x) (natUnits (persCount c))

/-- A power-saving mode given as an integer: exactly 1, 2, 3 or 4 (30_encoding R70). -/
def psmOfInt (n : Int) : Option PowerSavingMode :=
  psmLadder.find? fun m => decide (n = psmNumber m)

/-- Form P: 0 PWR_ON, 1 to 4 PWR_SAVE_n, 5 PWR_OFF; 6 and 7 are invalid values (30_encoding R82). -/
def powerOfCode (status : Nat) : Option PowerStatus :=
  match status with
  | 0 => some .on
  | 1 => some (.save .m1)
  | 2 => some (.save .m2)
  | 3 => some (.save .m3)
  | 4 => some (.save .m4)
  | 5 => some .off
  | _ => none

/-! ### Values to results (30_encoding R83) -/

/-- Form w: a 16-bit word or count. -/
def resultWord (w : Word) : Arg := w.setWidth 64

/-- Form pk: the bit pattern in 15:0, the command code of the field's register in 23:16. -/
def resultPacked (reg : SensorReg) (bits : Word) : Arg := (regCode reg ++ bits).setWidth 64

/-- Form b. -/
def resultBool (b : Bool) : Arg := BitVec.ofNat 64 b.toNat

/-- Form i: an unsigned integer. -/
def resultNat (n : Nat) : Arg := BitVec.ofNat 64 n

/-- Form f: a binary64; `operand` only matters to the free bits of a NaN (log 6). -/
def resultNum (operand : Arg) (x : Num) : Arg := numBits operand x

/-- Form f of a gain: its physical value, exact in binary64 (30_encoding R83). -/
def resultGain (g : Gain) : Arg := resultNum 0#64 (.fin false (gainUnits g))

/-- Form f of a whole number of milliseconds or counts, exact in binary64. -/
def resultWhole (n : Nat) : Arg := resultNum 0#64 (.fin false (natUnits n))

/-- Form p: a power status, coded as form P. -/
def resultPower : PowerStatus → Arg
  | .on => 0#64
  | .save m => BitVec.ofNat 64 (psmNumber m)
  | .off => 5#64

/-- Form ev: the event's own code. -/
def resultEvent (e : ThresholdEvent) : Arg := (eventCode e).setWidth 64

/-- Form cl: 0 SWEET, 1 LOWER_END, 2 UPPER_END. -/
def resultClass : Classification → Arg
  | .sweet => 0#64
  | .lowerEnd => 1#64
  | .upperEnd => 2#64

/-- Form sp: the ALS count in 15:0 and the white count in 31:16; a channel not requested reads 0. -/
def resultSample (als white : Word) : Arg := (white ++ als).setWidth 64

/-- Form none. -/
def resultNone : Arg := 0#64

end Sys2Proof.Machine
end

