-- ==== Sys2Proof/Machine/Flags.lean ====
section
/-! DEFINITION. The values that are derived and not stored (10_state R24), the response codes (30_encoding R81), and
the lux arithmetic they rest on (42_illuminance_ops R170 to R174). -/

namespace Sys2Proof.Machine

/-- The code of a status (30_encoding R81). -/
def statusCode : Status → BitVec 8
  | .ok => 0x00#8 | .invalidValue => 0x01#8 | .transportError => 0x02#8 | .noData => 0x03#8
  | .illegalCommand => 0x04#8 | .noEvent => 0x10#8 | .empty => 0x11#8 | .infinite => 0x12#8

/-- The 72-bit response word, status in bits 71:64 (30_encoding R81). -/
def responseWord (r : Response) : BitVec 72 := statusCode r.status ++ r.result

/-- The response of an error: a transport error's value in result[31:0], otherwise a result of 0
(30_encoding R81). -/
def errorResponse : OpError → Response
  | .invalidValue => ⟨.invalidValue, 0#64⟩
  | .transport t => ⟨.transportError, t.setWidth 64⟩
  | .noData => ⟨.noData, 0#64⟩
  | .illegalCommand => ⟨.illegalCommand, 0#64⟩

/-- `power_status(S)`: shutdown has priority (10_state R25). -/
def powerStatus (d : DeviceState) : PowerStatus :=
  if d.sd then .off else if d.psmEn then .save d.psm else .on

/-- `is_overflowing`: raw_output ≥ 0xFFFF (42_illuminance_ops R176). -/
def isOverflowing (count : Word) : Bool := decide (0xFFFF ≤ count.toNat)

/-- `is_underflowing`: raw_output ≤ 0 (42_illuminance_ops R177). -/
def isUnderflowing (count : Word) : Bool := decide (count.toNat ≤ 0)

/-- LOW_COUNT = 100 (00_scope section 4). -/
def lowCount : Nat := 100

/-- HIGH_COUNT = 10000 (00_scope section 4). -/
def highCount : Nat := 10000

/-- REF_INTEGRATION_TIME = 100 ms (00_scope section 4). -/
def refMillis : Nat := 100

/-- `gain < MAX_GAIN`. -/
def gainBelowMax (g : Gain) : Bool := decide (gainEighths g < 16)

/-- `gain > MIN_GAIN`. -/
def gainAboveMin (g : Gain) : Bool := decide (1 < gainEighths g)

/-- `classify` of a count at a gain and an integration time (43_autorange_ops R190): both count comparisons are
strict, and at the end of both ladders every count is SWEET (90_conflicts C2). -/
def classify (g : Gain) (t : IntegrationTime) (count : Word) : Classification :=
  if decide (count.toNat < lowCount) && (gainBelowMax g || decide (itMillis t < 800)) then .lowerEnd
  else if decide (highCount < count.toNat) && (gainAboveMin g || decide (25 < itMillis t)) then .upperEnd
  else .sweet

/-- `estimated_refresh_time` in milliseconds; none while shut down (42_illuminance_ops R178). -/
def refreshMillis (p : Params) (d : DeviceState) : Option Nat :=
  if d.sd then none
  else if d.psmEn then some (itMillis d.it + psOverheadMs p d.psm)
  else some (itMillis d.it)

/-! ### Lux (42_illuminance_ops R170 to R174) -/

/-- A base constant times the two ratios, two rounded multiplications in this order (42_illuminance_ops R171). -/
def scaledLux (base : Arg) (d : DeviceState) : Num :=
  fmul (fmul (numOfBits base) (numOfNat (gainRatio d.gain))) (numOfNat (itRatio d.it))

/-- `lux_resolution(S)` (42_illuminance_ops R171). -/
def luxResolution (p : Params) (d : DeviceState) : Num := scaledLux p.maxResolutionLux d

/-- `lux_overflow_value(S)` (42_illuminance_ops R172). -/
def luxOverflowValue (p : Params) (d : DeviceState) : Num := scaledLux p.minOverflowLux d

/-- 6.0135e-13, the coefficient of x⁴. -/
def coefficient4 : Num := litNum 60135 (10 ^ 17)

/-- 9.3924e-9, the coefficient of x³. -/
def coefficient3 : Num := litNum 93924 (10 ^ 13)

/-- 8.1488e-5, the coefficient of x². -/
def coefficient2 : Num := litNum 81488 (10 ^ 9)

/-- 1.0023, the coefficient of x. -/
def coefficient1 : Num := litNum 10023 (10 ^ 4)

/-- HIGH_LUX_THRESHOLD = 100 lux (00_scope section 4). -/
def highLux : Num := litNum 100 1

/-- The quartic of 42_illuminance_ops R173: powers first, then the four products, then `((a - b) + c) + d`, each
step one rounded operation. -/
def quartic (p : Params) (x : Num) : Num :=
  let p4 := fpow p x 4
  let p3 := fpow p x 3
  let p2 := fpow p x 2
  let a := fmul coefficient4 p4
  let b := fmul coefficient3 p3
  let c := fmul coefficient2 p2
  let d := fmul coefficient1 x
  fadd (fadd (fsub a b) c) d

/-- HLC: none is InvalidValue, for a NaN or an infinity (42_illuminance_ops R173). -/
def highLuxCorrection (p : Params) (x : Num) : Option Num :=
  if numFinite x then some (quartic p x) else none

/-- `raw_to_lux`: corrected when strictly above 100 lux (42_illuminance_ops R174). -/
def rawToLux (p : Params) (d : DeviceState) (count : Word) : Option Num :=
  let x := fmul (numOfNat count.toNat) (luxResolution p d)
  if fgt x highLux then highLuxCorrection p x else some x

end Sys2Proof.Machine
end

