-- ==== Sys2Proof/Machine/Ops.lean ====
section
/-! DEFINITION. The named operations every meaning is built from: the sensor's registers, the responses, ending an
operation with an error, the bus transactions and what an operation does after each, the setter discipline, and
reset. -/

namespace Sys2Proof.Machine

/-! ### What the sensor's registers are known to hold (10_state R36, log 7) -/

/-- The known content of a command code; none is unknown, which is what an unlisted code reads as. -/
def sensorRead : List SensorCell → Nat → Option Word
  | [], _ => none
  | (c, w) :: rest, code => if c = code then some w else sensorRead rest code

/-- After a write answered `ok` the register holds the word (20_memory R48). -/
def sensorWrite : List SensorCell → Nat → Word → List SensorCell
  | [], code, w => [(code, w)]
  | (c, v) :: rest, code, w =>
    if code < c then (code, w) :: (c, v) :: rest
    else if code = c then (code, w) :: rest
    else (c, v) :: sensorWrite rest code w

/-- After a write answered `err` the register's content is unknown (10_state R36, 93_implementation_defined U2). -/
def sensorForget : List SensorCell → Nat → List SensorCell
  | [], _ => []
  | (c, v) :: rest, code => if c = code then rest else (c, v) :: sensorForget rest code

/-- Command codes strictly rising. -/
def codesRise : List SensorCell → Bool
  | [] => true
  | [_] => true
  | (c, _) :: (c', w) :: rest => decide (c < c') && codesRise ((c', w) :: rest)

/-- The canonical form: codes strictly rise, and only the four registers the block writes are ever listed
(10_state R28). An unlisted code is unknown, so no entry can equal what it reads as. -/
def Memory.wf (cells : List SensorCell) : Bool :=
  codesRise cells && cells.all fun cell => decide (cell.1 < 4)

/-- The number of a register's command code, its key in the list. -/
def regKey (reg : SensorReg) : Nat := (regCode reg).toNat

/-- The known content of a sensor register. -/
def State.sensorHolds (s : State) (reg : SensorReg) : Option Word := sensorRead s.sensor (regKey reg)

/-- What a transaction does to the known content of the sensor's registers: a read changes nothing the model can
know (20_memory R47, R48). -/
def sensorAfter (request : Request) (answer : Answer) (cells : List SensorCell) : List SensorCell :=
  match request, answer with
  | .write reg w, .ok _ => sensorWrite cells (regKey reg) w
  | .write reg _, .err _ => sensorForget cells (regKey reg)
  | .read _, _ => cells

/-! ### Responses and errors (30_encoding R81, 60_exceptions R226) -/

/-- The operation ends: the response is given and the block is idle. -/
def State.respond (s : State) (r : Response) : State :=
  { s with responses := s.responses ++ [r], seq := .idle }

/-- The operation ends with status OK and a result. -/
def State.finish (s : State) (result : Arg) : State := s.respond ⟨.ok, result⟩

/-- The operation ends with an error: the one shared operation of 60_exceptions R226. Nothing is saved anywhere,
the state is what the pseudocode had reached, and the block is idle and takes the next command (R227). -/
def State.raise (s : State) (e : OpError) : State := s.respond (errorResponse e)

/-- Go on with a validated operand, or end with InvalidValue (60_exceptions R221). -/
def withValue {α : Type} (value : Option α) (k : α → State → State) (s : State) : State :=
  match value with
  | some v => k v s
  | none => s.raise .invalidValue

/-- Go on with the value of a field that may be UNSET, or end with NO_DATA (60_exceptions R223). -/
def withData {α : Type} (field : Option α) (k : α → State → State) (s : State) : State :=
  match field with
  | some v => k v s
  | none => s.raise .noData

/-! ### Bus transactions (20_memory R41 to R43, R50) -/

/-- Issue a transaction and wait for its answer (20_memory R42, R43). DESIGN CHOICE (log 20): what the sensor's registers
are known to hold stays as it is while the transaction is outstanding, also a write's and also for ever; the spec is
silent on it (70_reset_and_hazards R262), and only an answer or a reset changes it. -/
def State.issue (s : State) (request : Request) (resume : Resume) : State :=
  { s with seq := .waiting request resume }

/-- The trace entry of a transaction and its answer (20_memory R54). -/
def busEvent : Request → Answer → BusEvent
  | .read reg, a => .read reg a
  | .write reg w, .ok _ => .write reg w none
  | .write reg w, .err t => .write reg w (some t)

/-- A transaction is answered: it enters the trace, and a write changes what the sensor is known to hold. -/
def State.record (s : State) (request : Request) (answer : Answer) : State :=
  { s with
    trace := s.trace ++ [busEvent request answer]
    sensor := sensorAfter request answer s.sensor }

/-- Write the whole image of a register (20_memory R43). -/
def State.writeImage (s : State) (reg : SensorReg) (resume : Resume) : State :=
  match shadowImage s.cfg s.dev reg with
  | some w => s.issue (.write reg w) resume
  | none => s.finish resultNone

/-! ### The setter discipline (41_device_state_ops R129) -/

/-- Store, then write the register's image; nothing at all when the value is unchanged. `new` is S with the new
value stored. -/
def State.setField (s : State) (unchanged : Bool) (new : DeviceState) (reg : SensorReg) : State :=
  if unchanged then s.finish resultNone
  else { s with dev := new }.writeImage reg .respond

/-- SET.POWER's power-saving part: one PSM write when either of its fields differs (41_device_state_ops R137). -/
def State.setPowerSaving (s : State) (enable : Bool) (mode : PowerSavingMode) : State :=
  s.setField (decide (s.dev.psmEn = enable ∧ s.dev.psm = mode))
    { s.dev with psmEn := enable, psm := mode } .psm

/-- SET.POWER after its operand is known (41_device_state_ops R137): CONF first, then the power-saving part. -/
def State.setPower (s : State) (status : PowerStatus) : State :=
  let shutdown := decide (status = .off)
  let enable := match status with | .save _ => true | _ => false
  let mode := match status with | .save m => m | _ => s.dev.psm
  if s.dev.sd = shutdown then s.setPowerSaving enable mode
  else { s with dev := { s.dev with sd := shutdown } }.writeImage .conf (.powerSaving enable mode)

/-! ### CALIBRATE's choice (43_autorange_ops R196) -/

/-- The gain adjusted, if the step exists. -/
def steppedGain (d : DeviceState) (g : Option Gain) : Option DeviceState := g.map fun g => { d with gain := g }

/-- The integration time adjusted, if the step exists. -/
def steppedIt (d : DeviceState) (t : Option IntegrationTime) : Option DeviceState := t.map fun t => { d with it := t }

/-- The adjustment CALIBRATE makes on a count: none when it is SWEET or nothing is left to adjust. The order is
integration time toward 100 ms, then gain to its end, then integration time to its end (43_autorange_ops R196,
90_conflicts C3). -/
def calibrateAdjustment (d : DeviceState) (count : Word) : Option DeviceState :=
  match classify d.gain d.it count with
  | .sweet => none
  | .upperEnd =>
    if refMillis < itMillis d.it then steppedIt d (itDown d.it)
    else if gainAboveMin d.gain then steppedGain d (gainDown d.gain)
    else if 25 < itMillis d.it then steppedIt d (itDown d.it)
    else none
  | .lowerEnd =>
    if itMillis d.it < refMillis then steppedIt d (itUp d.it)
    else if gainBelowMax d.gain then steppedGain d (gainUp d.gain)
    else if itMillis d.it < 800 then steppedIt d (itUp d.it)
    else none

/-- CALIBRATE's state JUDGING (43_autorange_ops R198): respond OK, or store the adjustment and write CONF. -/
def State.judge (s : State) (count : Word) : State :=
  match calibrateAdjustment s.dev count with
  | none => s.finish resultNone
  | some d => { s with dev := d }.writeImage .conf .calibrateAdjusting

/-! ### Going on after an answered transaction -/

/-- What the operation in flight does when its transaction is answered `ok w`. SAMPLE's second read finds the count of
the first one stored; a state without one, which no run reaches, answers 0 for it (log 11). -/
def State.resumeWith (s : State) (resume : Resume) (w : Word) : State :=
  match resume with
  | .respond => s.finish resultNone
  | .powerSaving enable mode => s.setPowerSaving enable mode
  | .sampleAls readWhite =>
    let s := { s with dev := { s.dev with als := some w } }
    if readWhite then s.issue (.read .white) (.sampleWhite true) else s.finish (resultSample w 0#16)
  | .sampleWhite readAls =>
    let s := { s with dev := { s.dev with white := some w } }
    s.finish (resultSample (if readAls then s.dev.als.getD 0#16 else 0#16) w)
  | .calibrateSampling => { s with dev := { s.dev with als := some w } }.judge w
  | .calibrateAdjusting => s.issue (.read .als) .calibrateSampling
  | .pollEvent =>
    let e := decodeEvent w
    { s with dev := { s.dev with event := some e } }.finish (resultEvent e)

/-- One transaction answered: `err(t)` ends the operation at once, nothing stored after it (60_exceptions R222). -/
def State.complete (s : State) (request : Request) (resume : Resume) (answer : Answer) : State :=
  match answer with
  | .ok w => (s.record request answer).resumeWith resume w
  | .err t => (s.record request answer).raise (.transport t)

/-- Run the operation in flight against the transport's answers, in order, until it ends or they run out: one
operation is one step up to its response (92_eei_decisions D2, log 1). With no answer left the operation stays in
flight (20_memory R42, 70_reset_and_hazards R262). -/
def driveWith : List Answer → State → State
  | [], s => { s with answers := [] }
  | a :: rest, s =>
    match s.seq with
    | .idle => { s with answers := a :: rest }
    | .waiting request resume => driveWith rest (s.complete request resume a)

/-- Run against the answers the state holds. -/
def State.drive (s : State) : State := driveWith s.answers s

/-! ### The two ports -/

/-- A command starts only when no operation is in flight, and then runs; while one is in flight the port holds
the host and nothing changes (30_encoding R85, log 9). -/
def State.accept (s : State) (op : State → State) : Host.Outcome State Fault Refusal :=
  match s.seq with
  | .idle => .next (op s).drive
  | .waiting _ _ => .next s

/-- The transport answers the outstanding transaction, when it is `request`, with `ok w`, and the operation goes
on (20_memory R41, 30_encoding R73). A transaction that is not outstanding was not issued (log 8). -/
def State.transact (s : State) (request : Request) (w : Word) : Host.Outcome State Fault Refusal :=
  match s.seq with
  | .idle => .refused .transactionNotIssued
  | .waiting outstanding resume =>
    if outstanding = request then .next (s.complete outstanding resume (.ok w)).drive
    else .refused .transactionNotIssued

/-! ### Reset (70_reset_and_hazards R250 to R252) -/

/-- What the sensor is known to hold when the outstanding transaction is abandoned: a write may or may not have
been taken (70_reset_and_hazards R252, 93_implementation_defined U17). -/
def sensorAfterAbandon (seq : Sequencer) (cells : List SensorCell) : List SensorCell :=
  match seq with
  | .waiting (.write reg _) _ => sensorForget cells (regKey reg)
  | _ => cells

/-- Reset: S at its reset values, the sequencer idle, no response, no bus transaction (log 10). -/
def State.hardReset (s : State) : State :=
  { s with
    dev := resetDevice
    seq := .idle
    sensor := sensorAfterAbandon s.seq s.sensor
    resetIn := false }

end Sys2Proof.Machine
end

