-- ==== Sys2Proof/Machine/Device.lean ====
section
/-! DEFINITION. The device-state operations (41_device_state_ops): setters, SAMPLE, getters. -/

namespace Sys2Proof.Machine

/-! ### The setters over typed values: `set_field` of 41_device_state_ops R129 for each field -/

/-- `set_field(gain, g)`. -/
def setGain (g : Gain) (s : State) : State :=
  s.setField (decide (s.dev.gain = g)) { s.dev with gain := g } .conf

/-- `set_field(it, t)`. -/
def setIt (t : IntegrationTime) (s : State) : State :=
  s.setField (decide (s.dev.it = t)) { s.dev with it := t } .conf

/-- `set_field(pers, c)`. -/
def setPers (c : Persistence) (s : State) : State :=
  s.setField (decide (s.dev.pers = c)) { s.dev with pers := c } .conf

/-- `set_field(int_en, b)`. -/
def setIntEn (b : Bool) (s : State) : State :=
  s.setField (decide (s.dev.intEn = b)) { s.dev with intEn := b } .conf

/-- `set_field(sd, b)`. -/
def setSd (b : Bool) (s : State) : State :=
  s.setField (decide (s.dev.sd = b)) { s.dev with sd := b } .conf

/-- `set_field(psm, m)`. -/
def setPsm (m : PowerSavingMode) (s : State) : State :=
  s.setField (decide (s.dev.psm = m)) { s.dev with psm := m } .psm

/-- `set_field(psm_en, b)`. -/
def setPsmEn (b : Bool) (s : State) : State :=
  s.setField (decide (s.dev.psmEn = b)) { s.dev with psmEn := b } .psm

/-- `set_field(thr_hi, w)`: UNSET equals no value (10_state R11). -/
def setThrHi (w : Word) (s : State) : State :=
  s.setField (decide (s.dev.thrHi = some w)) { s.dev with thrHi := some w } .thrHi

/-- `set_field(thr_lo, w)`. -/
def setThrLo (w : Word) (s : State) : State :=
  s.setField (decide (s.dev.thrLo = some w)) { s.dev with thrLo := some w } .thrLo

/-! ### SET -/

/-- SET.GAIN, form E (41_device_state_ops R130). -/
def execSetGainE (index : Nat) (s : State) : Host.Outcome State Fault Refusal :=
  s.accept (withValue (gainAt index) setGain)

/-- SET.GAIN, form F (41_device_state_ops R130). -/
def execSetGainF (x : Arg) (s : State) : Host.Outcome State Fault Refusal :=
  s.accept (withValue (matchGain x) setGain)

/-- SET.IT, form E (41_device_state_ops R131). -/
def execSetItE (index : Nat) (s : State) : Host.Outcome State Fault Refusal :=
  s.accept (withValue (itAt index) setIt)

/-- SET.IT, form F (41_device_state_ops R131). -/
def execSetItF (x : Arg) (s : State) : Host.Outcome State Fault Refusal :=
  s.accept (withValue (matchIt x) setIt)

/-- SET.PERS, form E (41_device_state_ops R132). -/
def execSetPersE (index : Nat) (s : State) : Host.Outcome State Fault Refusal :=
  s.accept (withValue (persAt index) setPers)

/-- SET.PERS, form F (41_device_state_ops R132). -/
def execSetPersF (x : Arg) (s : State) : Host.Outcome State Fault Refusal :=
  s.accept (withValue (matchPers x) setPers)

/-- SET.INTEN (41_device_state_ops R133). -/
def execSetInten (b : Bool) (s : State) : Host.Outcome State Fault Refusal :=
  s.accept (setIntEn b)

/-- SET.SD (41_device_state_ops R134). -/
def execSetSd (b : Bool) (s : State) : Host.Outcome State Fault Refusal :=
  s.accept (setSd b)

/-- SET.PSM (41_device_state_ops R135). -/
def execSetPsm (n : Int) (s : State) : Host.Outcome State Fault Refusal :=
  s.accept (withValue (psmOfInt n) setPsm)

/-- SET.PSMEN (41_device_state_ops R136). -/
def execSetPsmen (b : Bool) (s : State) : Host.Outcome State Fault Refusal :=
  s.accept (setPsmEn b)

/-- SET.POWER (41_device_state_ops R137). -/
def execSetPower (status : Nat) (s : State) : Host.Outcome State Fault Refusal :=
  s.accept (withValue (powerOfCode status) fun p s => s.setPower p)

/-- SET.THRH: compared and stored after truncation (41_device_state_ops R138). -/
def execSetThrh (n : Int) (s : State) : Host.Outcome State Fault Refusal :=
  s.accept (setThrHi (truncate16 n))

/-- SET.THRL (41_device_state_ops R139). -/
def execSetThrl (n : Int) (s : State) : Host.Outcome State Fault Refusal :=
  s.accept (setThrLo (truncate16 n))

/-! ### SAMPLE -/

/-- SAMPLE: ALS before white, each stored right after its own read; EMPTY when neither is asked for
(41_device_state_ops R142). -/
def execSample (readAls readWhite : Bool) (s : State) : Host.Outcome State Fault Refusal :=
  s.accept fun s =>
    if readAls then s.issue (.read .als) (.sampleAls readWhite)
    else if readWhite then s.issue (.read .white) (.sampleWhite false)
    else s.respond ⟨.empty, resultNone⟩

/-! ### GET -/

/-- GET.GAIN: the physical value (41_device_state_ops R143). -/
def execGetGain (s : State) : Host.Outcome State Fault Refusal :=
  s.accept fun s => s.finish (resultGain s.dev.gain)

/-- GET.IT, milliseconds (41_device_state_ops R144). -/
def execGetIt (s : State) : Host.Outcome State Fault Refusal :=
  s.accept fun s => s.finish (resultWhole (itMillis s.dev.it))

/-- GET.PERS (41_device_state_ops R145). -/
def execGetPers (s : State) : Host.Outcome State Fault Refusal :=
  s.accept fun s => s.finish (resultWhole (persCount s.dev.pers))

/-- GET.INTEN (41_device_state_ops R146). -/
def execGetInten (s : State) : Host.Outcome State Fault Refusal :=
  s.accept fun s => s.finish (resultBool s.dev.intEn)

/-- GET.SD (41_device_state_ops R147). -/
def execGetSd (s : State) : Host.Outcome State Fault Refusal :=
  s.accept fun s => s.finish (resultBool s.dev.sd)

/-- GET.PSM (41_device_state_ops R148). -/
def execGetPsm (s : State) : Host.Outcome State Fault Refusal :=
  s.accept fun s => s.finish (resultNat (psmNumber s.dev.psm))

/-- GET.PSMEN (41_device_state_ops R149). -/
def execGetPsmen (s : State) : Host.Outcome State Fault Refusal :=
  s.accept fun s => s.finish (resultBool s.dev.psmEn)

/-- GET.POWER (41_device_state_ops R150). -/
def execGetPower (s : State) : Host.Outcome State Fault Refusal :=
  s.accept fun s => s.finish (resultPower (powerStatus s.dev))

/-- GET.THRH (41_device_state_ops R151). -/
def execGetThrh (s : State) : Host.Outcome State Fault Refusal :=
  s.accept (withData s.dev.thrHi fun w s => s.finish (resultWord w))

/-- GET.THRL (41_device_state_ops R152). -/
def execGetThrl (s : State) : Host.Outcome State Fault Refusal :=
  s.accept (withData s.dev.thrLo fun w s => s.finish (resultWord w))

/-- GET.ALS: the last sampled count, never a new sample (41_device_state_ops R153). -/
def execGetAls (s : State) : Host.Outcome State Fault Refusal :=
  s.accept (withData s.dev.als fun w s => s.finish (resultWord w))

/-- GET.WHITE (41_device_state_ops R154). -/
def execGetWhite (s : State) : Host.Outcome State Fault Refusal :=
  s.accept (withData s.dev.white fun w s => s.finish (resultWord w))

/-- GET.EVENT: the last-known event; INT is not read (41_device_state_ops R155). -/
def execGetEvent (s : State) : Host.Outcome State Fault Refusal :=
  s.accept (withData s.dev.event fun e s => s.finish (resultEvent e))

end Sys2Proof.Machine
end

