-- ==== Sys2Proof/Machine/AutoRange.lean ====
section
/-! DEFINITION. The auto-range operations (43_autorange_ops). -/

namespace Sys2Proof.Machine

/-- A step primitive: nothing at the end of the ladder, else `set_field` to the neighbour (43_autorange_ops R191:
"do not wrap, do not error"). -/
def stepTo {α : Type} (next : Option α) (set : α → State → State) (s : State) : State :=
  match next with
  | none => s.finish resultNone
  | some v => set v s

/-- CLASSIFY of the stored count (43_autorange_ops R190). -/
def execClassify (s : State) : Host.Outcome State Fault Refusal :=
  s.accept (withData s.dev.als fun w s => s.finish (resultClass (classify s.dev.gain s.dev.it w)))

/-- GAIN.UP (43_autorange_ops R191). -/
def execGainUp (s : State) : Host.Outcome State Fault Refusal :=
  s.accept (stepTo (gainUp s.dev.gain) setGain)

/-- GAIN.DN (43_autorange_ops R192). -/
def execGainDn (s : State) : Host.Outcome State Fault Refusal :=
  s.accept (stepTo (gainDown s.dev.gain) setGain)

/-- IT.UP (43_autorange_ops R193). -/
def execItUp (s : State) : Host.Outcome State Fault Refusal :=
  s.accept (stepTo (itUp s.dev.it) setIt)

/-- IT.DN (43_autorange_ops R194). -/
def execItDn (s : State) : Host.Outcome State Fault Refusal :=
  s.accept (stepTo (itDown s.dev.it) setIt)

/-- CALIBRATE: the first sample; the loop goes on in `State.resumeWith` (43_autorange_ops R196, R198). -/
def execCalibrate (s : State) : Host.Outcome State Fault Refusal :=
  s.accept fun s => s.issue (.read .als) .calibrateSampling

end Sys2Proof.Machine
end

