-- ==== Sys2Proof/Syntax.lean ====
section
/-! DEFINITION. The operations of the host command port (30_encoding R82, R84) and the bus transactions
(30_encoding R73): one constructor per row of spec/opcode_table.json, in the table's order. -/

namespace Sys2Proof

/-- An operation presented on the command port, or a transaction of the bus port. Operands by argument form
(30_encoding R82): an enumerator index and a power-status code are numbers (`WellFormed.lean` bounds them by
their bits), form I is an integer, form F the 64 bits of a binary64, form W a word, forms B and S flags. A bus
row's operands are the fields of its word (30_encoding R60). -/
inductive Instr where
  /-- PACK.GAIN.E, op 0x01, form E, result pk (40_codec_ops R101) -/
  | packGainE (index : Nat)
  /-- PACK.GAIN.F, op 0x81, form F, result pk (40_codec_ops R101) -/
  | packGainF (x : Arg)
  /-- PACK.IT.E, op 0x02, form E, result pk (40_codec_ops R102) -/
  | packItE (index : Nat)
  /-- PACK.IT.F, op 0x82, form F, result pk (40_codec_ops R102) -/
  | packItF (x : Arg)
  /-- PACK.PERS.E, op 0x03, form E, result pk (40_codec_ops R103) -/
  | packPersE (index : Nat)
  /-- PACK.PERS.F, op 0x83, form F, result pk (40_codec_ops R103) -/
  | packPersF (x : Arg)
  /-- PACK.INTEN, op 0x04, form B, result pk (40_codec_ops R104) -/
  | packInten (b : Bool)
  /-- PACK.SD, op 0x05, form B, result pk (40_codec_ops R105) -/
  | packSd (b : Bool)
  /-- PACK.PSM, op 0x06, form I, result pk (40_codec_ops R106) -/
  | packPsm (n : Int)
  /-- PACK.PSMEN, op 0x07, form B, result pk (40_codec_ops R107) -/
  | packPsmen (b : Bool)
  /-- PACK.THR, op 0x08, form I, result w (40_codec_ops R108) -/
  | packThr (n : Int)
  /-- UNPACK.GAIN, op 0x09, form W, result f (40_codec_ops R109) -/
  | unpackGain (w : Word)
  /-- UNPACK.IT, op 0x0A, form W, result f (40_codec_ops R110) -/
  | unpackIt (w : Word)
  /-- UNPACK.PERS, op 0x0B, form W, result f (40_codec_ops R111) -/
  | unpackPers (w : Word)
  /-- UNPACK.INTEN, op 0x0C, form W, result b (40_codec_ops R112) -/
  | unpackInten (w : Word)
  /-- UNPACK.SD, op 0x0D, form W, result b (40_codec_ops R113) -/
  | unpackSd (w : Word)
  /-- UNPACK.PSM, op 0x0E, form W, result i (40_codec_ops R114) -/
  | unpackPsm (w : Word)
  /-- UNPACK.PSMEN, op 0x0F, form W, result b (40_codec_ops R115) -/
  | unpackPsmen (w : Word)
  /-- UNPACK.EVENT, op 0x10, form W, result ev (40_codec_ops R116) -/
  | unpackEvent (w : Word)
  /-- CONF.WORD, op 0x11, form N, result w (40_codec_ops R117) -/
  | confWord
  /-- PSM.WORD, op 0x12, form N, result w (40_codec_ops R118) -/
  | psmWord
  /-- SET.GAIN.E, op 0x20, form E, result none (41_device_state_ops R130) -/
  | setGainE (index : Nat)
  /-- SET.GAIN.F, op 0xA0, form F, result none (41_device_state_ops R130) -/
  | setGainF (x : Arg)
  /-- SET.IT.E, op 0x21, form E, result none (41_device_state_ops R131) -/
  | setItE (index : Nat)
  /-- SET.IT.F, op 0xA1, form F, result none (41_device_state_ops R131) -/
  | setItF (x : Arg)
  /-- SET.PERS.E, op 0x22, form E, result none (41_device_state_ops R132) -/
  | setPersE (index : Nat)
  /-- SET.PERS.F, op 0xA2, form F, result none (41_device_state_ops R132) -/
  | setPersF (x : Arg)
  /-- SET.INTEN, op 0x23, form B, result none (41_device_state_ops R133) -/
  | setInten (b : Bool)
  /-- SET.SD, op 0x24, form B, result none (41_device_state_ops R134) -/
  | setSd (b : Bool)
  /-- SET.PSM, op 0x25, form I, result none (41_device_state_ops R135) -/
  | setPsm (n : Int)
  /-- SET.PSMEN, op 0x26, form B, result none (41_device_state_ops R136) -/
  | setPsmen (b : Bool)
  /-- SET.POWER, op 0x27, form P, result none (41_device_state_ops R137) -/
  | setPower (status : Nat)
  /-- SET.THRH, op 0x28, form I, result none (41_device_state_ops R138) -/
  | setThrh (n : Int)
  /-- SET.THRL, op 0x29, form I, result none (41_device_state_ops R139) -/
  | setThrl (n : Int)
  /-- SAMPLE, op 0x2F, form S, result sp (41_device_state_ops R142) -/
  | sample (readAls readWhite : Bool)
  /-- GET.GAIN, op 0x30, form N, result f (41_device_state_ops R143) -/
  | getGain
  /-- GET.IT, op 0x31, form N, result f (41_device_state_ops R144) -/
  | getIt
  /-- GET.PERS, op 0x32, form N, result f (41_device_state_ops R145) -/
  | getPers
  /-- GET.INTEN, op 0x33, form N, result b (41_device_state_ops R146) -/
  | getInten
  /-- GET.SD, op 0x34, form N, result b (41_device_state_ops R147) -/
  | getSd
  /-- GET.PSM, op 0x35, form N, result i (41_device_state_ops R148) -/
  | getPsm
  /-- GET.PSMEN, op 0x36, form N, result b (41_device_state_ops R149) -/
  | getPsmen
  /-- GET.POWER, op 0x37, form N, result p (41_device_state_ops R150) -/
  | getPower
  /-- GET.THRH, op 0x38, form N, result w (41_device_state_ops R151) -/
  | getThrh
  /-- GET.THRL, op 0x39, form N, result w (41_device_state_ops R152) -/
  | getThrl
  /-- GET.ALS, op 0x3A, form N, result w (41_device_state_ops R153) -/
  | getAls
  /-- GET.WHITE, op 0x3B, form N, result w (41_device_state_ops R154) -/
  | getWhite
  /-- GET.EVENT, op 0x3C, form N, result ev (41_device_state_ops R155) -/
  | getEvent
  /-- LUX.RES, op 0x40, form N, result f (42_illuminance_ops R171) -/
  | luxRes
  /-- LUX.OVF, op 0x41, form N, result f (42_illuminance_ops R172) -/
  | luxOvf
  /-- HLC, op 0x42, form F, result f (42_illuminance_ops R173) -/
  | hlc (x : Arg)
  /-- RAW2LUX, op 0x43, form W, result f (42_illuminance_ops R174) -/
  | raw2lux (w : Word)
  /-- LUX, op 0x44, form N, result f (42_illuminance_ops R175) -/
  | lux
  /-- IS.OVF, op 0x45, form N, result b (42_illuminance_ops R176) -/
  | isOvf
  /-- IS.UNF, op 0x46, form N, result b (42_illuminance_ops R177) -/
  | isUnf
  /-- REFRESH, op 0x47, form N, result i (42_illuminance_ops R178) -/
  | refresh
  /-- CLASSIFY, op 0x50, form N, result cl (43_autorange_ops R190) -/
  | classify
  /-- GAIN.UP, op 0x51, form N, result none (43_autorange_ops R191) -/
  | gainUp
  /-- GAIN.DN, op 0x52, form N, result none (43_autorange_ops R192) -/
  | gainDn
  /-- IT.UP, op 0x53, form N, result none (43_autorange_ops R193) -/
  | itUp
  /-- IT.DN, op 0x54, form N, result none (43_autorange_ops R194) -/
  | itDn
  /-- CALIBRATE, op 0x55, form N, result none (43_autorange_ops R196) -/
  | calibrate
  /-- POLL.EVENT, op 0x60, form N, result ev (44_event_ops R210) -/
  | pollEvent
  /-- BUS.CONF (30_encoding R66) -/
  | busConf (g : BitVec 2) (t : BitVec 4) (p : BitVec 2) (i sd : BitVec 1)
  /-- BUS.THR_HI (30_encoding R68) -/
  | busThrHi (h : Word)
  /-- BUS.THR_LO (30_encoding R68) -/
  | busThrLo (l : Word)
  /-- BUS.PSM (30_encoding R67) -/
  | busPsm (m : BitVec 2) (e : BitVec 1)
  /-- BUS.ALS (10_state R33) -/
  | busAls (a : Word)
  /-- BUS.WHITE (10_state R34) -/
  | busWhite (w : Word)
  /-- BUS.INT (30_encoding R69) -/
  | busInt (v : BitVec 2) (ignored : BitVec 14)
  deriving DecidableEq, Repr

end Sys2Proof
end

