-- ==== Sys2Proof/WellFormed.lean ====
section
/-! DEFINITION. Which instructions the encodings admit: each operand fits the bits its argument form uses
(30_encoding R82). A value that fits the bits and lies outside the legal set is well formed: the operation
answers INVALID_VALUE to it (30_encoding R86). -/

namespace Sys2Proof

/-- Form E: the index fits arg[3:0] (30_encoding R82). -/
def fitsIndex (index : Nat) : Bool := decide (index < 16)

/-- Form P: the power-status code fits arg[2:0] (30_encoding R82). -/
def fitsPower (status : Nat) : Bool := decide (status < 8)

/-- Form I: the integer lies in the port's signed 64-bit range (30_encoding R82, 92_eei_decisions D5). -/
def fitsInt (n : Int) : Bool := decide (-(2 ^ 63) ≤ n) && decide (n < 2 ^ 63)

/-- The instruction has an encoding. -/
def Instr.wf : Instr → Bool
  | .packGainE index => fitsIndex index
  | .packGainF _ => true
  | .packItE index => fitsIndex index
  | .packItF _ => true
  | .packPersE index => fitsIndex index
  | .packPersF _ => true
  | .packInten _ => true
  | .packSd _ => true
  | .packPsm n => fitsInt n
  | .packPsmen _ => true
  | .packThr n => fitsInt n
  | .unpackGain _ => true
  | .unpackIt _ => true
  | .unpackPers _ => true
  | .unpackInten _ => true
  | .unpackSd _ => true
  | .unpackPsm _ => true
  | .unpackPsmen _ => true
  | .unpackEvent _ => true
  | .confWord => true
  | .psmWord => true
  | .setGainE index => fitsIndex index
  | .setGainF _ => true
  | .setItE index => fitsIndex index
  | .setItF _ => true
  | .setPersE index => fitsIndex index
  | .setPersF _ => true
  | .setInten _ => true
  | .setSd _ => true
  | .setPsm n => fitsInt n
  | .setPsmen _ => true
  | .setPower status => fitsPower status
  | .setThrh n => fitsInt n
  | .setThrl n => fitsInt n
  | .sample _ _ => true
  | .getGain => true
  | .getIt => true
  | .getPers => true
  | .getInten => true
  | .getSd => true
  | .getPsm => true
  | .getPsmen => true
  | .getPower => true
  | .getThrh => true
  | .getThrl => true
  | .getAls => true
  | .getWhite => true
  | .getEvent => true
  | .luxRes => true
  | .luxOvf => true
  | .hlc _ => true
  | .raw2lux _ => true
  | .lux => true
  | .isOvf => true
  | .isUnf => true
  | .refresh => true
  | .classify => true
  | .gainUp => true
  | .gainDn => true
  | .itUp => true
  | .itDn => true
  | .calibrate => true
  | .pollEvent => true
  | .busConf _ _ _ _ _ => true
  | .busThrHi _ => true
  | .busThrLo _ => true
  | .busPsm _ _ => true
  | .busAls _ => true
  | .busWhite _ => true
  | .busInt _ _ => true

end Sys2Proof
end

