-- ==== Sys2Proof/Decode.lean ====
section
/-! DEFINITION. Reading a command word or a bus row, and writing one (30_encoding R73, R80, R82, R84, R86). The
decoder is total and refuses by name. -/

namespace Sys2Proof

/-- Why a word is no instruction. On the command port each is ILLEGAL_COMMAND (30_encoding R86); on the bus such
a transaction is never issued (20_memory R44, 30_encoding R72). -/
inductive DecodeError where
  /-- `op` is not in the table of 30_encoding R84. -/
  | undefinedOp (op : BitVec 8)
  /-- `arg` has a nonzero bit outside the bits its form uses (30_encoding R82). -/
  | reservedArgBits (op : BitVec 8)
  /-- A command code above 0x06 (20_memory R44). -/
  | undefinedCode (code : Code)
  /-- A CONF or PSM word with a nonzero unassigned bit (30_encoding R72 (a)). -/
  | unassignedWordBits (code : Code)
  deriving DecidableEq, Repr

/-- A word on one of the two ports: a 72-bit command, or a 24-bit bus transaction in R73's notation. -/
inductive PortWord where
  | command (w : Command)
  | bus (w : BusRow)
  deriving DecidableEq, Repr

/-! ### Fields of the words -/

/-- `op = cmd[71:64]` (30_encoding R80). -/
def commandOp (w : Command) : BitVec 8 := w.extractLsb' 64 8

/-- `arg = cmd[63:0]` (30_encoding R80). -/
def commandArg (w : Command) : Arg := w.extractLsb' 0 64

/-- The command code of a bus row (30_encoding R73). -/
def busRowCode (w : BusRow) : Code := w.extractLsb' 16 8

/-- The word of a bus row (30_encoding R73). -/
def busRowWord (w : BusRow) : Word := w.extractLsb' 0 16

/-- A bus row of a code and a word (30_encoding R73). -/
def busRow (code : Code) (w : Word) : BusRow := code ++ w

/-! ### Argument forms: the operands, or the refusal when a reserved bit is set (30_encoding R82, R86) -/

/-- Form N: no bit of `arg` is used. -/
def formN (op : BitVec 8) (a : Arg) (i : Instr) : Except DecodeError Instr :=
  if a.toNat = 0 then .ok i else .error (.reservedArgBits op)

/-- Form B: arg[0]. -/
def formB (op : BitVec 8) (a : Arg) (k : Bool → Instr) : Except DecodeError Instr :=
  if a.toNat < 2 then .ok (k (a.getLsbD 0)) else .error (.reservedArgBits op)

/-- Form S: arg[0] is read_als, arg[1] is read_white. -/
def formS (op : BitVec 8) (a : Arg) (k : Bool → Bool → Instr) : Except DecodeError Instr :=
  if a.toNat < 4 then .ok (k (a.getLsbD 0) (a.getLsbD 1)) else .error (.reservedArgBits op)

/-- Form E: arg[3:0], an enumerator index. -/
def formE (op : BitVec 8) (a : Arg) (k : Nat → Instr) : Except DecodeError Instr :=
  if a.toNat < 16 then .ok (k a.toNat) else .error (.reservedArgBits op)

/-- Form P: arg[2:0], a power status code. -/
def formP (op : BitVec 8) (a : Arg) (k : Nat → Instr) : Except DecodeError Instr :=
  if a.toNat < 8 then .ok (k a.toNat) else .error (.reservedArgBits op)

/-- Form W: arg[15:0]. -/
def formW (op : BitVec 8) (a : Arg) (k : Word → Instr) : Except DecodeError Instr :=
  if a.toNat < 65536 then .ok (k (a.setWidth 16)) else .error (.reservedArgBits op)

/-- Form I: all 64 bits, two's complement. -/
def formI (a : Arg) (k : Int → Instr) : Except DecodeError Instr := .ok (k a.toInt)

/-- Form F: all 64 bits, a binary64. -/
def formF (a : Arg) (k : Arg → Instr) : Except DecodeError Instr := .ok (k a)

/-! ### The command port -/

/-- The operation map of 30_encoding R84. -/
def decodeOp (op : BitVec 8) (a : Arg) : Except DecodeError Instr :=
  match op.toNat with
  | 0x01 => formE op a .packGainE
  | 0x02 => formE op a .packItE
  | 0x03 => formE op a .packPersE
  | 0x04 => formB op a .packInten
  | 0x05 => formB op a .packSd
  | 0x06 => formI a .packPsm
  | 0x07 => formB op a .packPsmen
  | 0x08 => formI a .packThr
  | 0x09 => formW op a .unpackGain
  | 0x0A => formW op a .unpackIt
  | 0x0B => formW op a .unpackPers
  | 0x0C => formW op a .unpackInten
  | 0x0D => formW op a .unpackSd
  | 0x0E => formW op a .unpackPsm
  | 0x0F => formW op a .unpackPsmen
  | 0x10 => formW op a .unpackEvent
  | 0x11 => formN op a .confWord
  | 0x12 => formN op a .psmWord
  | 0x20 => formE op a .setGainE
  | 0x21 => formE op a .setItE
  | 0x22 => formE op a .setPersE
  | 0x23 => formB op a .setInten
  | 0x24 => formB op a .setSd
  | 0x25 => formI a .setPsm
  | 0x26 => formB op a .setPsmen
  | 0x27 => formP op a .setPower
  | 0x28 => formI a .setThrh
  | 0x29 => formI a .setThrl
  | 0x2F => formS op a .sample
  | 0x30 => formN op a .getGain
  | 0x31 => formN op a .getIt
  | 0x32 => formN op a .getPers
  | 0x33 => formN op a .getInten
  | 0x34 => formN op a .getSd
  | 0x35 => formN op a .getPsm
  | 0x36 => formN op a .getPsmen
  | 0x37 => formN op a .getPower
  | 0x38 => formN op a .getThrh
  | 0x39 => formN op a .getThrl
  | 0x3A => formN op a .getAls
  | 0x3B => formN op a .getWhite
  | 0x3C => formN op a .getEvent
  | 0x40 => formN op a .luxRes
  | 0x41 => formN op a .luxOvf
  | 0x42 => formF a .hlc
  | 0x43 => formW op a .raw2lux
  | 0x44 => formN op a .lux
  | 0x45 => formN op a .isOvf
  | 0x46 => formN op a .isUnf
  | 0x47 => formN op a .refresh
  | 0x50 => formN op a .classify
  | 0x51 => formN op a .gainUp
  | 0x52 => formN op a .gainDn
  | 0x53 => formN op a .itUp
  | 0x54 => formN op a .itDn
  | 0x55 => formN op a .calibrate
  | 0x60 => formN op a .pollEvent
  | 0x81 => formF a .packGainF
  | 0x82 => formF a .packItF
  | 0x83 => formF a .packPersF
  | 0xA0 => formF a .setGainF
  | 0xA1 => formF a .setItF
  | 0xA2 => formF a .setPersF
  | _ => .error (.undefinedOp op)

/-- A command word as the port reads it (30_encoding R80, R86). -/
def decodeCommand (w : Command) : Except DecodeError Instr :=
  decodeOp (commandOp w) (commandArg w)

/-! ### The bus port -/

/-- The unassigned bits of CONF, 15:13, 10 and 3:2 (30_encoding R72). -/
def confUnassigned : Word := 0xE40C#16

/-- The unassigned bits of PSM, 15:3 (30_encoding R72). -/
def psmUnassigned : Word := 0xFFF8#16

/-- A sensor word of a command code, split into the fields of its format (30_encoding R60). -/
def decodeWord (code : Code) (w : Word) : Except DecodeError Instr :=
  match code.toNat with
  | 0x00 =>
    if w &&& confUnassigned = 0#16 then
      .ok (.busConf (w.extractLsb' 11 2) (w.extractLsb' 6 4) (w.extractLsb' 4 2) (w.extractLsb' 1 1)
        (w.extractLsb' 0 1))
    else .error (.unassignedWordBits code)
  | 0x01 => .ok (.busThrHi w)
  | 0x02 => .ok (.busThrLo w)
  | 0x03 =>
    if w &&& psmUnassigned = 0#16 then .ok (.busPsm (w.extractLsb' 1 2) (w.extractLsb' 0 1))
    else .error (.unassignedWordBits code)
  | 0x04 => .ok (.busAls w)
  | 0x05 => .ok (.busWhite w)
  | 0x06 => .ok (.busInt (w.extractLsb' 14 2) (w.extractLsb' 0 14))
  | _ => .error (.undefinedCode code)

/-- A bus row as R73 writes it. -/
def decodeBus (w : BusRow) : Except DecodeError Instr :=
  decodeWord (busRowCode w) (busRowWord w)

/-- The decoder over both ports. -/
def decode : PortWord → Except DecodeError Instr
  | .command w => decodeCommand w
  | .bus w => decodeBus w

/-! ### The encoder -/

/-- The CONF word of its five field codes: `0 0 0 g g 0 t t t t p p 0 0 i s` (30_encoding R60). -/
def confOfCodes (g : BitVec 2) (t : BitVec 4) (p : BitVec 2) (i sd : BitVec 1) : Word :=
  0#3 ++ g ++ 0#1 ++ t ++ p ++ 0#2 ++ i ++ sd

/-- The PSM word of its two field codes: thirteen zeros, `m m e` (30_encoding R60). -/
def psmOfCodes (m : BitVec 2) (e : BitVec 1) : Word := 0#13 ++ m ++ e

/-- The INT word `l h x…x`: the two event bits above the fourteen ignored ones (30_encoding R60). -/
def intOfFields (v : BitVec 2) (ignored : BitVec 14) : Word := v ++ ignored

/-- A command word of its `op` and `arg` (30_encoding R80). -/
def commandWord (op : BitVec 8) (a : Arg) : Command := op ++ a

/-- Form N's `arg`. -/
def argN : Arg := 0#64

/-- Form B's `arg`. -/
def argB (b : Bool) : Arg := BitVec.ofNat 64 b.toNat

/-- Form S's `arg`. -/
def argS (readAls readWhite : Bool) : Arg := BitVec.ofNat 64 (readAls.toNat + 2 * readWhite.toNat)

/-- The `arg` of forms E and P. -/
def argNat (n : Nat) : Arg := BitVec.ofNat 64 n

/-- Form W's `arg`. -/
def argW (w : Word) : Arg := w.setWidth 64

/-- Form I's `arg`, two's complement. -/
def argI (n : Int) : Arg := BitVec.ofInt 64 n

/-- The word of an instruction (30_encoding R73, R80, R84). -/
def encode : Instr → PortWord
  | .packGainE index => .command (commandWord 0x01#8 (argNat index))
  | .packGainF x => .command (commandWord 0x81#8 x)
  | .packItE index => .command (commandWord 0x02#8 (argNat index))
  | .packItF x => .command (commandWord 0x82#8 x)
  | .packPersE index => .command (commandWord 0x03#8 (argNat index))
  | .packPersF x => .command (commandWord 0x83#8 x)
  | .packInten b => .command (commandWord 0x04#8 (argB b))
  | .packSd b => .command (commandWord 0x05#8 (argB b))
  | .packPsm n => .command (commandWord 0x06#8 (argI n))
  | .packPsmen b => .command (commandWord 0x07#8 (argB b))
  | .packThr n => .command (commandWord 0x08#8 (argI n))
  | .unpackGain w => .command (commandWord 0x09#8 (argW w))
  | .unpackIt w => .command (commandWord 0x0A#8 (argW w))
  | .unpackPers w => .command (commandWord 0x0B#8 (argW w))
  | .unpackInten w => .command (commandWord 0x0C#8 (argW w))
  | .unpackSd w => .command (commandWord 0x0D#8 (argW w))
  | .unpackPsm w => .command (commandWord 0x0E#8 (argW w))
  | .unpackPsmen w => .command (commandWord 0x0F#8 (argW w))
  | .unpackEvent w => .command (commandWord 0x10#8 (argW w))
  | .confWord => .command (commandWord 0x11#8 argN)
  | .psmWord => .command (commandWord 0x12#8 argN)
  | .setGainE index => .command (commandWord 0x20#8 (argNat index))
  | .setGainF x => .command (commandWord 0xA0#8 x)
  | .setItE index => .command (commandWord 0x21#8 (argNat index))
  | .setItF x => .command (commandWord 0xA1#8 x)
  | .setPersE index => .command (commandWord 0x22#8 (argNat index))
  | .setPersF x => .command (commandWord 0xA2#8 x)
  | .setInten b => .command (commandWord 0x23#8 (argB b))
  | .setSd b => .command (commandWord 0x24#8 (argB b))
  | .setPsm n => .command (commandWord 0x25#8 (argI n))
  | .setPsmen b => .command (commandWord 0x26#8 (argB b))
  | .setPower status => .command (commandWord 0x27#8 (argNat status))
  | .setThrh n => .command (commandWord 0x28#8 (argI n))
  | .setThrl n => .command (commandWord 0x29#8 (argI n))
  | .sample readAls readWhite => .command (commandWord 0x2F#8 (argS readAls readWhite))
  | .getGain => .command (commandWord 0x30#8 argN)
  | .getIt => .command (commandWord 0x31#8 argN)
  | .getPers => .command (commandWord 0x32#8 argN)
  | .getInten => .command (commandWord 0x33#8 argN)
  | .getSd => .command (commandWord 0x34#8 argN)
  | .getPsm => .command (commandWord 0x35#8 argN)
  | .getPsmen => .command (commandWord 0x36#8 argN)
  | .getPower => .command (commandWord 0x37#8 argN)
  | .getThrh => .command (commandWord 0x38#8 argN)
  | .getThrl => .command (commandWord 0x39#8 argN)
  | .getAls => .command (commandWord 0x3A#8 argN)
  | .getWhite => .command (commandWord 0x3B#8 argN)
  | .getEvent => .command (commandWord 0x3C#8 argN)
  | .luxRes => .command (commandWord 0x40#8 argN)
  | .luxOvf => .command (commandWord 0x41#8 argN)
  | .hlc x => .command (commandWord 0x42#8 x)
  | .raw2lux w => .command (commandWord 0x43#8 (argW w))
  | .lux => .command (commandWord 0x44#8 argN)
  | .isOvf => .command (commandWord 0x45#8 argN)
  | .isUnf => .command (commandWord 0x46#8 argN)
  | .refresh => .command (commandWord 0x47#8 argN)
  | .classify => .command (commandWord 0x50#8 argN)
  | .gainUp => .command (commandWord 0x51#8 argN)
  | .gainDn => .command (commandWord 0x52#8 argN)
  | .itUp => .command (commandWord 0x53#8 argN)
  | .itDn => .command (commandWord 0x54#8 argN)
  | .calibrate => .command (commandWord 0x55#8 argN)
  | .pollEvent => .command (commandWord 0x60#8 argN)
  | .busConf g t p i sd => .bus (busRow 0x00#8 (confOfCodes g t p i sd))
  | .busThrHi h => .bus (busRow 0x01#8 h)
  | .busThrLo l => .bus (busRow 0x02#8 l)
  | .busPsm m e => .bus (busRow 0x03#8 (psmOfCodes m e))
  | .busAls a => .bus (busRow 0x04#8 a)
  | .busWhite w => .bus (busRow 0x05#8 w)
  | .busInt v ignored => .bus (busRow 0x06#8 (intOfFields v ignored))

/-! ### The opcode table's words -/

/-- The instruction the decoder reads from an instruction whose bits are `w`, of `nbits` bits, bit 0 the least
significant: a command is 72 bits with `op` at the top (30_encoding R80), a bus row 24 bits (R73). No row has
another length, and a `w` with bits above `nbits` is no such word. -/
def decodeTableWord (nbits w : Nat) : Option Instr :=
  if nbits = 72 ∧ w < 2 ^ 72 then (decodeCommand (BitVec.ofNat 72 w)).toOption
  else if nbits = 24 ∧ w < 2 ^ 24 then (decodeBus (BitVec.ofNat 24 w)).toOption
  else none

end Sys2Proof
end

