-- ==== Sys2Proof/Machine/Bus.lean ====
section
/-! DEFINITION. The bus transaction rows (30_encoding R73): the transaction of the row is answered `ok` at the bus
port, and the operation that issued it goes on (log 8). A write row carries the word the block sent, a read row
the word the sensor answers. -/

namespace Sys2Proof.Machine

/-- BUS.CONF: the outstanding write of this CONF word is answered (30_encoding R66). -/
def execBusConf (g : BitVec 2) (t : BitVec 4) (p : BitVec 2) (i sd : BitVec 1) (s : State) :
    Host.Outcome State Fault Refusal :=
  s.transact (.write .conf (confOfCodes g t p i sd)) 0#16

/-- BUS.THR_HI: the outstanding write of this high threshold is answered (30_encoding R68). -/
def execBusThrHi (h : Word) (s : State) : Host.Outcome State Fault Refusal :=
  s.transact (.write .thrHi h) 0#16

/-- BUS.THR_LO: the outstanding write of this low threshold is answered (30_encoding R68). -/
def execBusThrLo (l : Word) (s : State) : Host.Outcome State Fault Refusal :=
  s.transact (.write .thrLo l) 0#16

/-- BUS.PSM: the outstanding write of this PSM word is answered (30_encoding R67). -/
def execBusPsm (m : BitVec 2) (e : BitVec 1) (s : State) : Host.Outcome State Fault Refusal :=
  s.transact (.write .psm (psmOfCodes m e)) 0#16

/-- BUS.ALS: the outstanding read of ALS is answered with this count (10_state R33). -/
def execBusAls (a : Word) (s : State) : Host.Outcome State Fault Refusal :=
  s.transact (.read .als) a

/-- BUS.WHITE: the outstanding read of WHITE is answered with this count (10_state R34). -/
def execBusWhite (w : Word) (s : State) : Host.Outcome State Fault Refusal :=
  s.transact (.read .white) w

/-- BUS.INT: the outstanding read of INT is answered with this event field; the low fourteen bits are ignored by
the block (30_encoding R69). -/
def execBusInt (v : BitVec 2) (ignored : BitVec 14) (s : State) : Host.Outcome State Fault Refusal :=
  s.transact (.read .int) (intOfFields v ignored)

end Sys2Proof.Machine
end

