-- ==== Sys2Proof/Machine/Codec.lean ====
section
/-! DEFINITION. The register codec operations (40_codec_ops): they write no field of S and issue no bus
transaction (R100). -/

namespace Sys2Proof.Machine

/-! ### What each kind of operation answers -/

/-- The packed gain: bits and command code (40_codec_ops R101). -/
def packGain (g : Gain) (s : State) : State :=
  s.finish (resultPacked .conf (encodeField fieldGain (gainCode s.cfg g)))

/-- The packed integration time (40_codec_ops R102). -/
def packIt (t : IntegrationTime) (s : State) : State :=
  s.finish (resultPacked .conf (encodeField fieldIt (itCode s.cfg t)))

/-- The packed persistence (40_codec_ops R103). -/
def packPers (c : Persistence) (s : State) : State :=
  s.finish (resultPacked .conf (encodeField fieldPers (persCode s.cfg c)))

/-- The packed power-saving mode, of the separate register (40_codec_ops R106). -/
def packPsm (m : PowerSavingMode) (s : State) : State :=
  s.finish (resultPacked .psm (encodeField fieldPsm (psmCode s.cfg m)))

/-- A packed one-bit field. -/
def packFlag (reg : SensorReg) (f : Field) (b : Bool) (s : State) : State :=
  s.finish (resultPacked reg (encodeField f (boolCode b)))

/-- An unpacked one-bit field. -/
def unpackFlag (f : Field) (w : Word) (s : State) : State :=
  s.finish (resultBool (decodeFlag f w))

/-! ### PACK -/

/-- PACK.GAIN, form E (40_codec_ops R101). -/
def execPackGainE (index : Nat) (s : State) : Host.Outcome State Fault Refusal :=
  s.accept (withValue (gainAt index) packGain)

/-- PACK.GAIN, form F (40_codec_ops R101). -/
def execPackGainF (x : Arg) (s : State) : Host.Outcome State Fault Refusal :=
  s.accept (withValue (matchGain x) packGain)

/-- PACK.IT, form E (40_codec_ops R102). -/
def execPackItE (index : Nat) (s : State) : Host.Outcome State Fault Refusal :=
  s.accept (withValue (itAt index) packIt)

/-- PACK.IT, form F (40_codec_ops R102). -/
def execPackItF (x : Arg) (s : State) : Host.Outcome State Fault Refusal :=
  s.accept (withValue (matchIt x) packIt)

/-- PACK.PERS, form E (40_codec_ops R103). -/
def execPackPersE (index : Nat) (s : State) : Host.Outcome State Fault Refusal :=
  s.accept (withValue (persAt index) packPers)

/-- PACK.PERS, form F (40_codec_ops R103). -/
def execPackPersF (x : Arg) (s : State) : Host.Outcome State Fault Refusal :=
  s.accept (withValue (matchPers x) packPers)

/-- PACK.INTEN (40_codec_ops R104). -/
def execPackInten (b : Bool) (s : State) : Host.Outcome State Fault Refusal :=
  s.accept (packFlag .conf fieldIntEn b)

/-- PACK.SD (40_codec_ops R105). -/
def execPackSd (b : Bool) (s : State) : Host.Outcome State Fault Refusal :=
  s.accept (packFlag .conf fieldSd b)

/-- PACK.PSM (40_codec_ops R106). -/
def execPackPsm (n : Int) (s : State) : Host.Outcome State Fault Refusal :=
  s.accept (withValue (psmOfInt n) packPsm)

/-- PACK.PSMEN (40_codec_ops R107). -/
def execPackPsmen (b : Bool) (s : State) : Host.Outcome State Fault Refusal :=
  s.accept (packFlag .psm fieldPsmEn b)

/-- PACK.THR: truncation, no range error (40_codec_ops R108). -/
def execPackThr (n : Int) (s : State) : Host.Outcome State Fault Refusal :=
  s.accept fun s => s.finish (resultWord (truncate16 n))

/-! ### UNPACK -/

/-- UNPACK.GAIN (40_codec_ops R109). -/
def execUnpackGain (w : Word) (s : State) : Host.Outcome State Fault Refusal :=
  s.accept (withValue (decodeGain s.cfg w) fun g s => s.finish (resultGain g))

/-- UNPACK.IT (40_codec_ops R110). -/
def execUnpackIt (w : Word) (s : State) : Host.Outcome State Fault Refusal :=
  s.accept (withValue (decodeIt s.cfg w) fun t s => s.finish (resultWhole (itMillis t)))

/-- UNPACK.PERS (40_codec_ops R111). -/
def execUnpackPers (w : Word) (s : State) : Host.Outcome State Fault Refusal :=
  s.accept (withValue (decodePers s.cfg w) fun c s => s.finish (resultWhole (persCount c)))

/-- UNPACK.INTEN (40_codec_ops R112). -/
def execUnpackInten (w : Word) (s : State) : Host.Outcome State Fault Refusal :=
  s.accept (unpackFlag fieldIntEn w)

/-- UNPACK.SD (40_codec_ops R113). -/
def execUnpackSd (w : Word) (s : State) : Host.Outcome State Fault Refusal :=
  s.accept (unpackFlag fieldSd w)

/-- UNPACK.PSM (40_codec_ops R114). -/
def execUnpackPsm (w : Word) (s : State) : Host.Outcome State Fault Refusal :=
  s.accept (withValue (decodePsm s.cfg w) fun m s => s.finish (resultNat (psmNumber m)))

/-- UNPACK.PSMEN (40_codec_ops R115). -/
def execUnpackPsmen (w : Word) (s : State) : Host.Outcome State Fault Refusal :=
  s.accept (unpackFlag fieldPsmEn w)

/-- UNPACK.EVENT: S.event is not touched (40_codec_ops R116). -/
def execUnpackEvent (w : Word) (s : State) : Host.Outcome State Fault Refusal :=
  s.accept fun s => s.finish (resultEvent (decodeEvent w))

/-! ### Whole words -/

/-- CONF.WORD: the word a CONF write would carry now (40_codec_ops R117). -/
def execConfWord (s : State) : Host.Outcome State Fault Refusal :=
  s.accept fun s => s.finish (resultWord (confImage s.cfg s.dev))

/-- PSM.WORD (40_codec_ops R118). -/
def execPsmWord (s : State) : Host.Outcome State Fault Refusal :=
  s.accept fun s => s.finish (resultWord (psmImage s.cfg s.dev))

end Sys2Proof.Machine
end

