-- ==== Sys2Proof/Machine/Illuminance.lean ====
section
/-! DEFINITION. The illuminance operations (42_illuminance_ops): they write no field of S and issue no bus
transaction. -/

namespace Sys2Proof.Machine

/-- A computed lux value answered in form f; none is InvalidValue. `operand` matters only to a NaN's free bits. -/
def finishLux (operand : Arg) (lux : Option Num) (s : State) : State :=
  withValue lux (fun x s => s.finish (resultNum operand x)) s

/-- LUX.RES (42_illuminance_ops R171). -/
def execLuxRes (s : State) : Host.Outcome State Fault Refusal :=
  s.accept fun s => s.finish (resultNum 0#64 (luxResolution s.cfg s.dev))

/-- LUX.OVF (42_illuminance_ops R172). -/
def execLuxOvf (s : State) : Host.Outcome State Fault Refusal :=
  s.accept fun s => s.finish (resultNum 0#64 (luxOverflowValue s.cfg s.dev))

/-- HLC: the polynomial alone, no threshold (42_illuminance_ops R173). -/
def execHlc (x : Arg) (s : State) : Host.Outcome State Fault Refusal :=
  s.accept (finishLux x (highLuxCorrection s.cfg (numOfBits x)))

/-- RAW2LUX of any count (42_illuminance_ops R174). -/
def execRaw2lux (w : Word) (s : State) : Host.Outcome State Fault Refusal :=
  s.accept (finishLux (resultWord w) (rawToLux s.cfg s.dev w))

/-- LUX of the stored count, at the settings in force now (42_illuminance_ops R175). -/
def execLux (s : State) : Host.Outcome State Fault Refusal :=
  s.accept (withData s.dev.als fun w s => finishLux (resultWord w) (rawToLux s.cfg s.dev w) s)

/-- IS.OVF (42_illuminance_ops R176). -/
def execIsOvf (s : State) : Host.Outcome State Fault Refusal :=
  s.accept (withData s.dev.als fun w s => s.finish (resultBool (isOverflowing w)))

/-- IS.UNF (42_illuminance_ops R177). -/
def execIsUnf (s : State) : Host.Outcome State Fault Refusal :=
  s.accept (withData s.dev.als fun w s => s.finish (resultBool (isUnderflowing w)))

/-- REFRESH: INFINITE while shut down, else milliseconds (42_illuminance_ops R178). -/
def execRefresh (s : State) : Host.Outcome State Fault Refusal :=
  s.accept fun s =>
    match refreshMillis s.cfg s.dev with
    | none => s.respond ⟨.infinite, resultNone⟩
    | some ms => s.finish (resultNat ms)

end Sys2Proof.Machine
end

