-- ==== Sys2Proof/Machine/Poll.lean ====
section
/-! DEFINITION. The threshold-event operation (44_event_ops). -/

namespace Sys2Proof.Machine

/-- POLL.EVENT: NO_EVENT without touching the bus while interrupts are disabled in the shadow, else one read of
INT (44_event_ops R210). -/
def execPollEvent (s : State) : Host.Outcome State Fault Refusal :=
  s.accept fun s =>
    if s.dev.intEn then s.issue (.read .int) .pollEvent
    else s.respond ⟨.noEvent, resultNone⟩

end Sys2Proof.Machine
end

