-- ==== Sys2Proof/Machine/Dispatch.lean ====
section
/-! DEFINITION. One arm per constructor of `Instr`: its meaning. -/

namespace Sys2Proof.Machine

def exec (i : Instr) (s : State) : Host.Outcome State Fault Refusal :=
  match i with
  | .packGainE index => Sys2Proof.Machine.execPackGainE index s
  | .packGainF x => Sys2Proof.Machine.execPackGainF x s
  | .packItE index => Sys2Proof.Machine.execPackItE index s
  | .packItF x => Sys2Proof.Machine.execPackItF x s
  | .packPersE index => Sys2Proof.Machine.execPackPersE index s
  | .packPersF x => Sys2Proof.Machine.execPackPersF x s
  | .packInten b => Sys2Proof.Machine.execPackInten b s
  | .packSd b => Sys2Proof.Machine.execPackSd b s
  | .packPsm n => Sys2Proof.Machine.execPackPsm n s
  | .packPsmen b => Sys2Proof.Machine.execPackPsmen b s
  | .packThr n => Sys2Proof.Machine.execPackThr n s
  | .unpackGain w => Sys2Proof.Machine.execUnpackGain w s
  | .unpackIt w => Sys2Proof.Machine.execUnpackIt w s
  | .unpackPers w => Sys2Proof.Machine.execUnpackPers w s
  | .unpackInten w => Sys2Proof.Machine.execUnpackInten w s
  | .unpackSd w => Sys2Proof.Machine.execUnpackSd w s
  | .unpackPsm w => Sys2Proof.Machine.execUnpackPsm w s
  | .unpackPsmen w => Sys2Proof.Machine.execUnpackPsmen w s
  | .unpackEvent w => Sys2Proof.Machine.execUnpackEvent w s
  | .confWord => Sys2Proof.Machine.execConfWord s
  | .psmWord => Sys2Proof.Machine.execPsmWord s
  | .setGainE index => Sys2Proof.Machine.execSetGainE index s
  | .setGainF x => Sys2Proof.Machine.execSetGainF x s
  | .setItE index => Sys2Proof.Machine.execSetItE index s
  | .setItF x => Sys2Proof.Machine.execSetItF x s
  | .setPersE index => Sys2Proof.Machine.execSetPersE index s
  | .setPersF x => Sys2Proof.Machine.execSetPersF x s
  | .setInten b => Sys2Proof.Machine.execSetInten b s
  | .setSd b => Sys2Proof.Machine.execSetSd b s
  | .setPsm n => Sys2Proof.Machine.execSetPsm n s
  | .setPsmen b => Sys2Proof.Machine.execSetPsmen b s
  | .setPower status => Sys2Proof.Machine.execSetPower status s
  | .setThrh n => Sys2Proof.Machine.execSetThrh n s
  | .setThrl n => Sys2Proof.Machine.execSetThrl n s
  | .sample readAls readWhite => Sys2Proof.Machine.execSample readAls readWhite s
  | .getGain => Sys2Proof.Machine.execGetGain s
  | .getIt => Sys2Proof.Machine.execGetIt s
  | .getPers => Sys2Proof.Machine.execGetPers s
  | .getInten => Sys2Proof.Machine.execGetInten s
  | .getSd => Sys2Proof.Machine.execGetSd s
  | .getPsm => Sys2Proof.Machine.execGetPsm s
  | .getPsmen => Sys2Proof.Machine.execGetPsmen s
  | .getPower => Sys2Proof.Machine.execGetPower s
  | .getThrh => Sys2Proof.Machine.execGetThrh s
  | .getThrl => Sys2Proof.Machine.execGetThrl s
  | .getAls => Sys2Proof.Machine.execGetAls s
  | .getWhite => Sys2Proof.Machine.execGetWhite s
  | .getEvent => Sys2Proof.Machine.execGetEvent s
  | .luxRes => Sys2Proof.Machine.execLuxRes s
  | .luxOvf => Sys2Proof.Machine.execLuxOvf s
  | .hlc x => Sys2Proof.Machine.execHlc x s
  | .raw2lux w => Sys2Proof.Machine.execRaw2lux w s
  | .lux => Sys2Proof.Machine.execLux s
  | .isOvf => Sys2Proof.Machine.execIsOvf s
  | .isUnf => Sys2Proof.Machine.execIsUnf s
  | .refresh => Sys2Proof.Machine.execRefresh s
  | .classify => Sys2Proof.Machine.execClassify s
  | .gainUp => Sys2Proof.Machine.execGainUp s
  | .gainDn => Sys2Proof.Machine.execGainDn s
  | .itUp => Sys2Proof.Machine.execItUp s
  | .itDn => Sys2Proof.Machine.execItDn s
  | .calibrate => Sys2Proof.Machine.execCalibrate s
  | .pollEvent => Sys2Proof.Machine.execPollEvent s
  | .busConf g t p ie sd => Sys2Proof.Machine.execBusConf g t p ie sd s
  | .busThrHi h => Sys2Proof.Machine.execBusThrHi h s
  | .busThrLo l => Sys2Proof.Machine.execBusThrLo l s
  | .busPsm m e => Sys2Proof.Machine.execBusPsm m e s
  | .busAls a => Sys2Proof.Machine.execBusAls a s
  | .busWhite w => Sys2Proof.Machine.execBusWhite w s
  | .busInt v ignored => Sys2Proof.Machine.execBusInt v ignored s

end Sys2Proof.Machine
end

