-- ==== Sys2Proof/Machine/Fetch.lean ====
section
/-! DEFINITION. What the next step acts on: the reset input, the head of the command port when the block is idle, or
the transport's next answer when a transaction is outstanding; and the layout of both. -/

namespace Sys2Proof.Machine

/-- What a step finds on the ports. -/
inductive Fetched where
  /-- The reset input is asserted. -/
  | reset
  /-- Nothing to act on: no command while idle, no answer while a transaction is outstanding. -/
  | nothing
  /-- An instruction, and the state with its word taken from the port. -/
  | run (i : Instr) (s : State)
  /-- An illegal command word, and the state with the word taken from the port. -/
  | illegal (s : State)
  /-- The transport answered `err(t)`, and the state with the answer taken. -/
  | failed (request : Request) (resume : Resume) (t : TransportError) (s : State)
  /-- The outstanding request is none of the seven bus rows. -/
  | unissuable

/-- The 24 bits of a transaction answered `ok w`: a write's word is what the block sends, a read's what the sensor
answers (30_encoding R73). -/
def transactionRow (request : Request) (w : Word) : BusRow :=
  match request with
  | .read reg => busRow (regCode reg) w
  | .write reg sent => busRow (regCode reg) sent

/-- The instruction of a transaction answered `ok w`: the bus row's, which must be a row of the request's own
direction (10_state R28); none when the block issues no such transaction. -/
def transactionInstr (request : Request) (w : Word) : Option Instr :=
  match request, (decodeBus (transactionRow request w)).toOption with
  | .write .conf _, some i => some i
  | .write .thrHi _, some i => some i
  | .write .thrLo _, some i => some i
  | .write .psm _, some i => some i
  | .read .als, some i => some i
  | .read .white, some i => some i
  | .read .int, some i => some i
  | _, _ => none

/-- The fetch. Reset comes first (70_reset_and_hazards R250, R252); a command is taken only while idle
(30_encoding R85). -/
def fetch (s : State) : Fetched :=
  if s.resetIn then .reset
  else
    match s.seq with
    | .idle =>
      match s.cmds with
      | [] => .nothing
      | w :: rest =>
        match decodeCommand w with
        | .ok i => .run i { s with cmds := rest }
        | .error _ => .illegal { s with cmds := rest }
    | .waiting request resume =>
      match s.answers with
      | [] => .nothing
      | .err t :: rest => .failed request resume t { s with answers := rest }
      | .ok w :: rest =>
        match transactionInstr request w with
        | some i => .run i { s with answers := rest }
        | none => .unissuable

/-! ### Placing an instruction where the next step fetches it (log 15) -/

/-- An operation in flight that has the transaction of a bus row outstanding, and the word the transport answers:
the state in which the block fetches that row. -/
def outstandingFor (i : Instr) : Option (Sequencer × Word) :=
  match i with
  | .busConf g t p j sd => some (.waiting (.write .conf (confOfCodes g t p j sd)) .respond, 0#16)
  | .busThrHi h => some (.waiting (.write .thrHi h) .respond, 0#16)
  | .busThrLo l => some (.waiting (.write .thrLo l) .respond, 0#16)
  | .busPsm m e => some (.waiting (.write .psm (psmOfCodes m e)) .respond, 0#16)
  | .busAls a => some (.waiting (.read .als) (.sampleAls false), a)
  | .busWhite w => some (.waiting (.read .white) (.sampleWhite false), w)
  | .busInt v ignored => some (.waiting (.read .int) .pollEvent, intOfFields v ignored)
  | _ => none

/-- A command word at the head of the command port of an idle block. -/
def placeCommand (s : State) (w : Nat) : State :=
  { s with resetIn := false, seq := .idle, cmds := BitVec.ofNat 72 w :: s.cmds }

/-- A bus row about to be answered: the transaction outstanding and its answer next. A word that is no row
leaves the state as it is. -/
def placeBusRow (s : State) (w : Nat) : State :=
  match (decodeBus (BitVec.ofNat 24 w)).toOption.bind outstandingFor with
  | some (seq, word) => { s with resetIn := false, seq := seq, answers := .ok word :: s.answers }
  | none => s

end Sys2Proof.Machine
end

