-- ==== Sys2Proof/Machine/Step.lean ====
section
/-! DEFINITION. One step: the reset input, one command of the host run up to its response, or the transport's next
answer to a transaction that was left outstanding (92_eei_decisions D2, log 1). -/

namespace Sys2Proof.Machine

/-- One step of the machine. With nothing on the ports it stays as it is: the block waits for a command
(70_reset_and_hazards R250) or for the transport (R262), an infinite run. -/
def step (s : State) : Host.Outcome State Fault Refusal :=
  match fetch s with
  | .reset => .next s.hardReset
  | .nothing => .next s
  | .run i s' => exec i s'
  | .illegal s' => .next (s'.raise .illegalCommand)
  | .failed request resume t s' => .next (s'.complete request resume (.err t))
  | .unissuable => .fault .unissuableTransaction

/-- The state with an instruction placed where `step` fetches its next one: a 72-bit command at the head of the
command port, or a 24-bit bus row as the answer to that transaction outstanding. -/
def State.withFetchWord (s : State) (nbits w : Nat) : State :=
  if nbits = 72 then placeCommand s w
  else if nbits = 24 then placeBusRow s w
  else s

end Sys2Proof.Machine
end

