-- ==== Sys2Proof/Safety.lean ====
section
/-! DEFINITION. What the claims are stated in: the invariant of the machine, when the parameters are admissible, when
the sensor agrees with the shadow, the opcode table's masks, the numbers as rationals. -/

namespace Sys2Proof.Machine

/-! ### The invariant -/

/-- The outstanding transaction is one its operation issues there, and a write carries the image of the shadow as
it is now (20_memory R43, R44; 41_device_state_ops R129). -/
def State.requestOk (s : State) : Bool :=
  match s.seq with
  | .idle => true
  | .waiting (.write reg w) .respond => decide (shadowImage s.cfg s.dev reg = some w)
  | .waiting (.write .conf w) (.powerSaving _ _) => decide (w = confImage s.cfg s.dev)
  | .waiting (.write .conf w) .calibrateAdjusting => decide (w = confImage s.cfg s.dev)
  | .waiting (.read .als) (.sampleAls _) => true
  | .waiting (.read .white) (.sampleWhite readAls) => !readAls || s.dev.als.isSome
  | .waiting (.read .als) .calibrateSampling => true
  | .waiting (.read .int) .pollEvent => s.dev.intEn
  | _ => false

/-- The invariant every step keeps: the sensor list is canonical, and the outstanding transaction is legal. -/
def State.inv (s : State) : Bool := Memory.wf s.sensor && s.requestOk

/-- A write of this register is outstanding. -/
def State.awaitsWriteOf (s : State) (reg : SensorReg) : Bool :=
  match s.seq with
  | .waiting (.write r _) _ => decide (r = reg)
  | _ => false

/-- Wherever the content of a sensor register is known and no write of it is outstanding, it is the image of the
shadow (10_state R36, 70_reset_and_hazards R260). -/
def State.shadowAgrees (s : State) : Prop :=
  ∀ reg w, s.sensorHolds reg = some w → s.awaitsWriteOf reg = false → shadowImage s.cfg s.dev reg = some w

/-! ### Admissible parameters (00_scope section 4) -/

/-- A positive finite binary64. -/
def positiveFinite (w : Arg) : Bool :=
  !w.msb && decide (w ≠ 0#64) && decide ((w.extractLsb' 52 11).toNat < 2047)

/-- The integration-time codes in order of value. -/
def itCodes (p : Params) : List Nat := itLadder.map fun t => (itCode p t).toNat

/-- What 00_scope section 4 and 92_eei_decisions D7, D8, D22 require of the parameters: tables injective, IT_CODE
non-monotonic, the two constants positive and finite, the overheads non-decreasing (and in the port's range). -/
def paramsOk (p : Params) : Bool :=
  decide (gainLadder.map (gainCode p)).Nodup && decide (itLadder.map (itCode p)).Nodup
    && decide (persLadder.map (persCode p)).Nodup && decide (psmLadder.map (psmCode p)).Nodup
    && !decide ((itCodes p).Pairwise (· ≤ ·)) && !decide ((itCodes p).Pairwise (· ≥ ·))
    && positiveFinite p.maxResolutionLux && positiveFinite p.minOverflowLux
    && decide (p.overhead1 ≤ p.overhead2) && decide (p.overhead2 ≤ p.overhead3)
    && decide (p.overhead3 ≤ p.overhead4) && decide (p.overhead4 + 800 < 2 ^ 64)

/-! ### Numbers as rationals, for claims about rounding (00_scope R8) -/

/-- The rational value of a finite number. -/
def numValue : Num → Option ℚ
  | .fin neg mag => some ((if neg then -1 else 1) * (mag : ℚ) / 2 ^ 1074)
  | _ => none

/-- A gain as a rational. -/
def gainValue (g : Gain) : ℚ := (gainEighths g : ℚ) / 8

/-- A magnitude in units of 2^-1074 that a binary64 of unbounded exponent holds: 53 significant bits. -/
def Representable (mag : Nat) : Prop := ∃ mant e : Nat, mag = mant * 2 ^ e ∧ mant < 2 ^ 53

/-- The rational value of an answer, an infinity standing at ±2^1024, the first value past the range (log 5). -/
def cappedValue : Num → Option ℚ
  | .inf neg => some ((if neg then -1 else 1) * 2 ^ 1024)
  | x => numValue x

/-- `mag` units of 2^-1074 is a 53-bit number, none is nearer to `r`, and of two equally near it is the one whose
significand is even: the distance of the two, doubled, divides it. -/
def NearestEven (mag : Nat) (r : ℚ) : Prop :=
  Representable mag ∧ ∀ c : Nat, Representable c →
    |(mag : ℚ) / 2 ^ 1074 - r| ≤ |(c : ℚ) / 2 ^ 1074 - r| ∧
    (|(mag : ℚ) / 2 ^ 1074 - r| = |(c : ℚ) / 2 ^ 1074 - r| → c ≠ mag → 2 * |(mag : ℤ) - c| ∣ (mag : ℤ))

/-- `x` is the binary64 that round to nearest even makes of the exact value `r`: the nearest magnitude with the sign of
`r` (of a zero either sign), 2^1024 and above an infinity (00_scope R8). -/
def RoundsTo (r : ℚ) (x : Num) : Prop :=
  ∃ (neg : Bool) (mag : Nat), NearestEven mag |r| ∧ (r < 0 → neg = true) ∧ (0 < r → neg = false) ∧
    x = if mag < 2 ^ 2098 then .fin neg mag else .inf neg

/-- `v` lies within one unit in the last place of the exact value `r`: within the smallest unit 2^-1074, or within
2^(e-52) for a power of two 2^e that `r` reaches (00_scope R8, log 5). -/
def WithinUlp (v r : ℚ) : Prop :=
  |v - r| ≤ 2 ^ (-1074 : ℤ) ∨ ∃ e : ℤ, (2 : ℚ) ^ e ≤ |r| ∧ |v - r| ≤ 2 ^ (e - 52)

/-! ### Physical values as binary64 words (30_encoding R83, 95_test_vectors V26, V30, V14) -/

/-- 0.125, 0.25, 1.0, 2.0. -/
def gainDouble : Gain → Arg
  | .eighth => 0x3FC0000000000000#64 | .quarter => 0x3FD0000000000000#64
  | .one => 0x3FF0000000000000#64 | .two => 0x4000000000000000#64

/-- 25.0, 50.0, 100.0, 200.0, 400.0, 800.0. -/
def itDouble : IntegrationTime → Arg
  | .ms25 => 0x4039000000000000#64 | .ms50 => 0x4049000000000000#64 | .ms100 => 0x4059000000000000#64
  | .ms200 => 0x4069000000000000#64 | .ms400 => 0x4079000000000000#64 | .ms800 => 0x4089000000000000#64

/-- 1.0, 2.0, 4.0, 8.0. -/
def persDouble : Persistence → Arg
  | .p1 => 0x3FF0000000000000#64 | .p2 => 0x4000000000000000#64
  | .p4 => 0x4010000000000000#64 | .p8 => 0x4020000000000000#64

/-! ### What a claim says of one response or one transaction -/

/-- The state with one more response and nothing else changed. -/
def State.answered (s : State) (status : Status) (result : Arg) : State :=
  { s with responses := s.responses ++ [⟨status, result⟩] }

/-- The state after an operation whose one write of `w` to `reg` was answered: `d` is stored, the write is in the
trace, the sensor holds `w` or is unknown there, and the response is OK or TRANSPORT_ERROR (41_device_state_ops R129,
60_exceptions R222). -/
def State.afterWrite (s : State) (d : DeviceState) (reg : SensorReg) (w : Word) (error : Option TransportError)
    (rest : List Answer) : State :=
  { s with
    dev := d
    answers := rest
    trace := s.trace ++ [.write reg w error]
    sensor := match error with
      | none => sensorWrite s.sensor (regKey reg) w
      | some _ => sensorForget s.sensor (regKey reg)
    responses := s.responses ++ [match error with
      | none => ⟨.ok, 0#64⟩
      | some t => ⟨.transportError, t.setWidth 64⟩] }

/-- The setter discipline of one operation (41_device_state_ops R129): unchanged is silent; a change is stored and
writes `w` to `reg`, whether the write is answered `ok`, answered `err` (the new value stays, decision D13), or not yet
answered (the sensor's known content stands, log 20). -/
def SetterEffect (out : Host.Outcome State Fault Refusal) (s : State) (unchanged : Prop) (d : DeviceState)
    (reg : SensorReg) (w : Word) : Prop :=
  (unchanged → out = .next (s.answered .ok 0#64)) ∧
  (¬unchanged → ∀ v rest, s.answers = .ok v :: rest → out = .next (s.afterWrite d reg w none rest)) ∧
  (¬unchanged → ∀ t rest, s.answers = .err t :: rest → out = .next (s.afterWrite d reg w (some t) rest)) ∧
  (¬unchanged → s.answers = [] → out = .next { s with dev := d, seq := .waiting (.write reg w) .respond })

/-- The shutdown flag, power-saving enable and mode that SET.POWER asks for (41_device_state_ops R137). -/
def powerTarget (d : DeviceState) : PowerStatus → DeviceState
  | .on => { d with sd := false, psmEn := false }
  | .off => { d with sd := true, psmEn := false }
  | .save m => { d with sd := false, psmEn := true, psm := m }

/-- The CONF word of S spelled out bit by bit (30_encoding R60, R66). -/
def confLayout (p : Params) (d : DeviceState) : Word :=
  confOfCodes (gainCode p d.gain) (itCode p d.it) (persCode p d.pers) (BitVec.ofBool d.intEn) (BitVec.ofBool d.sd)

/-- The PSM word of S spelled out bit by bit (30_encoding R60, R67). -/
def psmLayout (p : Params) (d : DeviceState) : Word := psmOfCodes (psmCode p d.psm) (BitVec.ofBool d.psmEn)

/-! ### The opcode table -/

/-- Rows of the opcode table, part 1: match and mask. -/
def commandRows1 : List (Command × Command) :=
  [(0x010000000000000000#72, 0xFFFFFFFFFFFFFFFFF0#72),
   (0x810000000000000000#72, 0xFF0000000000000000#72),
   (0x020000000000000000#72, 0xFFFFFFFFFFFFFFFFF0#72),
   (0x820000000000000000#72, 0xFF0000000000000000#72),
   (0x030000000000000000#72, 0xFFFFFFFFFFFFFFFFF0#72),
   (0x830000000000000000#72, 0xFF0000000000000000#72),
   (0x040000000000000000#72, 0xFFFFFFFFFFFFFFFFFE#72),
   (0x050000000000000000#72, 0xFFFFFFFFFFFFFFFFFE#72),
   (0x060000000000000000#72, 0xFF0000000000000000#72),
   (0x070000000000000000#72, 0xFFFFFFFFFFFFFFFFFE#72),
   (0x080000000000000000#72, 0xFF0000000000000000#72),
   (0x090000000000000000#72, 0xFFFFFFFFFFFFFF0000#72),
   (0x0A0000000000000000#72, 0xFFFFFFFFFFFFFF0000#72),
   (0x0B0000000000000000#72, 0xFFFFFFFFFFFFFF0000#72),
   (0x0C0000000000000000#72, 0xFFFFFFFFFFFFFF0000#72),
   (0x0D0000000000000000#72, 0xFFFFFFFFFFFFFF0000#72)]

/-- Rows of the opcode table, part 2: match and mask. -/
def commandRows2 : List (Command × Command) :=
  [(0x0E0000000000000000#72, 0xFFFFFFFFFFFFFF0000#72),
   (0x0F0000000000000000#72, 0xFFFFFFFFFFFFFF0000#72),
   (0x100000000000000000#72, 0xFFFFFFFFFFFFFF0000#72),
   (0x110000000000000000#72, 0xFFFFFFFFFFFFFFFFFF#72),
   (0x120000000000000000#72, 0xFFFFFFFFFFFFFFFFFF#72),
   (0x200000000000000000#72, 0xFFFFFFFFFFFFFFFFF0#72),
   (0xA00000000000000000#72, 0xFF0000000000000000#72),
   (0x210000000000000000#72, 0xFFFFFFFFFFFFFFFFF0#72),
   (0xA10000000000000000#72, 0xFF0000000000000000#72),
   (0x220000000000000000#72, 0xFFFFFFFFFFFFFFFFF0#72),
   (0xA20000000000000000#72, 0xFF0000000000000000#72),
   (0x230000000000000000#72, 0xFFFFFFFFFFFFFFFFFE#72),
   (0x240000000000000000#72, 0xFFFFFFFFFFFFFFFFFE#72),
   (0x250000000000000000#72, 0xFF0000000000000000#72),
   (0x260000000000000000#72, 0xFFFFFFFFFFFFFFFFFE#72),
   (0x270000000000000000#72, 0xFFFFFFFFFFFFFFFFF8#72)]

/-- Rows of the opcode table, part 3: match and mask. -/
def commandRows3 : List (Command × Command) :=
  [(0x280000000000000000#72, 0xFF0000000000000000#72),
   (0x290000000000000000#72, 0xFF0000000000000000#72),
   (0x2F0000000000000000#72, 0xFFFFFFFFFFFFFFFFFC#72),
   (0x300000000000000000#72, 0xFFFFFFFFFFFFFFFFFF#72),
   (0x310000000000000000#72, 0xFFFFFFFFFFFFFFFFFF#72),
   (0x320000000000000000#72, 0xFFFFFFFFFFFFFFFFFF#72),
   (0x330000000000000000#72, 0xFFFFFFFFFFFFFFFFFF#72),
   (0x340000000000000000#72, 0xFFFFFFFFFFFFFFFFFF#72),
   (0x350000000000000000#72, 0xFFFFFFFFFFFFFFFFFF#72),
   (0x360000000000000000#72, 0xFFFFFFFFFFFFFFFFFF#72),
   (0x370000000000000000#72, 0xFFFFFFFFFFFFFFFFFF#72),
   (0x380000000000000000#72, 0xFFFFFFFFFFFFFFFFFF#72),
   (0x390000000000000000#72, 0xFFFFFFFFFFFFFFFFFF#72),
   (0x3A0000000000000000#72, 0xFFFFFFFFFFFFFFFFFF#72),
   (0x3B0000000000000000#72, 0xFFFFFFFFFFFFFFFFFF#72),
   (0x3C0000000000000000#72, 0xFFFFFFFFFFFFFFFFFF#72)]

/-- Rows of the opcode table, part 4: match and mask. -/
def commandRows4 : List (Command × Command) :=
  [(0x400000000000000000#72, 0xFFFFFFFFFFFFFFFFFF#72),
   (0x410000000000000000#72, 0xFFFFFFFFFFFFFFFFFF#72),
   (0x420000000000000000#72, 0xFF0000000000000000#72),
   (0x430000000000000000#72, 0xFFFFFFFFFFFFFF0000#72),
   (0x440000000000000000#72, 0xFFFFFFFFFFFFFFFFFF#72),
   (0x450000000000000000#72, 0xFFFFFFFFFFFFFFFFFF#72),
   (0x460000000000000000#72, 0xFFFFFFFFFFFFFFFFFF#72),
   (0x470000000000000000#72, 0xFFFFFFFFFFFFFFFFFF#72),
   (0x500000000000000000#72, 0xFFFFFFFFFFFFFFFFFF#72),
   (0x510000000000000000#72, 0xFFFFFFFFFFFFFFFFFF#72),
   (0x520000000000000000#72, 0xFFFFFFFFFFFFFFFFFF#72),
   (0x530000000000000000#72, 0xFFFFFFFFFFFFFFFFFF#72),
   (0x540000000000000000#72, 0xFFFFFFFFFFFFFFFFFF#72),
   (0x550000000000000000#72, 0xFFFFFFFFFFFFFFFFFF#72),
   (0x600000000000000000#72, 0xFFFFFFFFFFFFFFFFFF#72)]

/-- The 63 command rows of spec/opcode_table.json, each its match and its mask (30_encoding R84). -/
def commandRows : List (Command × Command) :=
  commandRows1 ++ commandRows2 ++ commandRows3 ++ commandRows4

/-- The seven bus rows of spec/opcode_table.json, each its match and its mask (30_encoding R73). -/
def busRows : List (BusRow × BusRow) :=
  [(0x000000#24, 0xFFE40C#24),
   (0x010000#24, 0xFF0000#24),
   (0x020000#24, 0xFF0000#24),
   (0x030000#24, 0xFFFFF8#24),
   (0x040000#24, 0xFF0000#24),
   (0x050000#24, 0xFF0000#24),
   (0x060000#24, 0xFF0000#24)]

/-! ### Families -/

/-- The seven rows of the bus port (30_encoding R73); the other sixty-three are commands. -/
def isBusRow : Instr → Bool
  | .packGainE _ => false
  | .packGainF _ => false
  | .packItE _ => false
  | .packItF _ => false
  | .packPersE _ => false
  | .packPersF _ => false
  | .packInten _ => false
  | .packSd _ => false
  | .packPsm _ => false
  | .packPsmen _ => false
  | .packThr _ => false
  | .unpackGain _ => false
  | .unpackIt _ => false
  | .unpackPers _ => false
  | .unpackInten _ => false
  | .unpackSd _ => false
  | .unpackPsm _ => false
  | .unpackPsmen _ => false
  | .unpackEvent _ => false
  | .confWord => false
  | .psmWord => false
  | .setGainE _ => false
  | .setGainF _ => false
  | .setItE _ => false
  | .setItF _ => false
  | .setPersE _ => false
  | .setPersF _ => false
  | .setInten _ => false
  | .setSd _ => false
  | .setPsm _ => false
  | .setPsmen _ => false
  | .setPower _ => false
  | .setThrh _ => false
  | .setThrl _ => false
  | .sample _ _ => false
  | .getGain => false
  | .getIt => false
  | .getPers => false
  | .getInten => false
  | .getSd => false
  | .getPsm => false
  | .getPsmen => false
  | .getPower => false
  | .getThrh => false
  | .getThrl => false
  | .getAls => false
  | .getWhite => false
  | .getEvent => false
  | .luxRes => false
  | .luxOvf => false
  | .hlc _ => false
  | .raw2lux _ => false
  | .lux => false
  | .isOvf => false
  | .isUnf => false
  | .refresh => false
  | .classify => false
  | .gainUp => false
  | .gainDn => false
  | .itUp => false
  | .itDn => false
  | .calibrate => false
  | .pollEvent => false
  | .busConf _ _ _ _ _ => true
  | .busThrHi _ => true
  | .busThrLo _ => true
  | .busPsm _ _ => true
  | .busAls _ => true
  | .busWhite _ => true
  | .busInt _ _ => true

/-- The operations that issue no bus transaction and write no field of S: codec, getters, illuminance, CLASSIFY
(20_memory R44, last paragraph). -/
def isPure : Instr → Bool
  | .packGainE _ => true
  | .packGainF _ => true
  | .packItE _ => true
  | .packItF _ => true
  | .packPersE _ => true
  | .packPersF _ => true
  | .packInten _ => true
  | .packSd _ => true
  | .packPsm _ => true
  | .packPsmen _ => true
  | .packThr _ => true
  | .unpackGain _ => true
  | .unpackIt _ => true
  | .unpackPers _ => true
  | .unpackInten _ => true
  | .unpackSd _ => true
  | .unpackPsm _ => true
  | .unpackPsmen _ => true
  | .unpackEvent _ => true
  | .confWord => true
  | .psmWord => true
  | .setGainE _ => false
  | .setGainF _ => false
  | .setItE _ => false
  | .setItF _ => false
  | .setPersE _ => false
  | .setPersF _ => false
  | .setInten _ => false
  | .setSd _ => false
  | .setPsm _ => false
  | .setPsmen _ => false
  | .setPower _ => false
  | .setThrh _ => false
  | .setThrl _ => false
  | .sample _ _ => false
  | .getGain => true
  | .getIt => true
  | .getPers => true
  | .getInten => true
  | .getSd => true
  | .getPsm => true
  | .getPsmen => true
  | .getPower => true
  | .getThrh => true
  | .getThrl => true
  | .getAls => true
  | .getWhite => true
  | .getEvent => true
  | .luxRes => true
  | .luxOvf => true
  | .hlc _ => true
  | .raw2lux _ => true
  | .lux => true
  | .isOvf => true
  | .isUnf => true
  | .refresh => true
  | .classify => true
  | .gainUp => false
  | .gainDn => false
  | .itUp => false
  | .itDn => false
  | .calibrate => false
  | .pollEvent => false
  | .busConf _ _ _ _ _ => false
  | .busThrHi _ => false
  | .busThrLo _ => false
  | .busPsm _ _ => false
  | .busAls _ => false
  | .busWhite _ => false
  | .busInt _ _ => false

/-- The transactions each operation may put on the bus (20_memory R44); the pure operations issue none. -/
def mayIssue : Instr → BusEvent → Bool
  | .setGainE _, .write .conf _ _ => true
  | .setGainF _, .write .conf _ _ => true
  | .setItE _, .write .conf _ _ => true
  | .setItF _, .write .conf _ _ => true
  | .setPersE _, .write .conf _ _ => true
  | .setPersF _, .write .conf _ _ => true
  | .setInten _, .write .conf _ _ => true
  | .setSd _, .write .conf _ _ => true
  | .setPsm _, .write .psm _ _ => true
  | .setPsmen _, .write .psm _ _ => true
  | .setPower _, .write .conf _ _ => true
  | .setPower _, .write .psm _ _ => true
  | .setThrh _, .write .thrHi _ _ => true
  | .setThrl _, .write .thrLo _ _ => true
  | .sample readAls _, .read .als _ => readAls
  | .sample _ readWhite, .read .white _ => readWhite
  | .gainUp, .write .conf _ _ => true
  | .gainDn, .write .conf _ _ => true
  | .itUp, .write .conf _ _ => true
  | .itDn, .write .conf _ _ => true
  | .calibrate, .write .conf _ _ => true
  | .calibrate, .read .als _ => true
  | .pollEvent, .read .int _ => true
  | _, _ => false

/-- The twelve fields of S, by name. -/
inductive DeviceField where
  | gain | it | pers | intEn | sd | psm | psmEn | thrHi | thrLo | als | white | event
  deriving DecidableEq, Repr

/-- Two records agree on a field. -/
def sameField (a b : DeviceState) : DeviceField → Prop
  | .gain => a.gain = b.gain
  | .it => a.it = b.it
  | .pers => a.pers = b.pers
  | .intEn => a.intEn = b.intEn
  | .sd => a.sd = b.sd
  | .psm => a.psm = b.psm
  | .psmEn => a.psmEn = b.psmEn
  | .thrHi => a.thrHi = b.thrHi
  | .thrLo => a.thrLo = b.thrLo
  | .als => a.als = b.als
  | .white => a.white = b.white
  | .event => a.event = b.event

/-- The operations that write each field, by "Written by" of 10_state R12 to R22. -/
def mayWrite : Instr → DeviceField → Bool
  | .setGainE _, .gain => true
  | .setGainF _, .gain => true
  | .gainUp, .gain => true
  | .gainDn, .gain => true
  | .calibrate, .gain => true
  | .setItE _, .it => true
  | .setItF _, .it => true
  | .itUp, .it => true
  | .itDn, .it => true
  | .calibrate, .it => true
  | .setPersE _, .pers => true
  | .setPersF _, .pers => true
  | .setInten _, .intEn => true
  | .setSd _, .sd => true
  | .setPower _, .sd => true
  | .setPsm _, .psm => true
  | .setPower _, .psm => true
  | .setPsmen _, .psmEn => true
  | .setPower _, .psmEn => true
  | .setThrh _, .thrHi => true
  | .setThrl _, .thrLo => true
  | .sample readAls _, .als => readAls
  | .calibrate, .als => true
  | .sample _ readWhite, .white => readWhite
  | .pollEvent, .event => true
  | _, _ => false

/-- The answers that make CALIBRATE's classification alternate for ever from gain 1, 100 ms: 50, then 20000, each
with the `ok` of the CONF write after it (43_autorange_ops R197, 95_test_vectors V47). -/
def alternatingAnswers (n : Nat) : List Answer :=
  (List.replicate n [.ok 50#16, .ok 0#16, .ok 20000#16, .ok 0#16]).flatten

/-! ### More terms of the claims -/

/-- The codec operations (40_codec_ops). -/
def isCodec : Instr → Bool
  | .packGainE _ => true
  | .packGainF _ => true
  | .packItE _ => true
  | .packItF _ => true
  | .packPersE _ => true
  | .packPersF _ => true
  | .packInten _ => true
  | .packSd _ => true
  | .packPsm _ => true
  | .packPsmen _ => true
  | .packThr _ => true
  | .unpackGain _ => true
  | .unpackIt _ => true
  | .unpackPers _ => true
  | .unpackInten _ => true
  | .unpackSd _ => true
  | .unpackPsm _ => true
  | .unpackPsmen _ => true
  | .unpackEvent _ => true
  | .confWord => true
  | .psmWord => true
  | .setGainE _ => false
  | .setGainF _ => false
  | .setItE _ => false
  | .setItF _ => false
  | .setPersE _ => false
  | .setPersF _ => false
  | .setInten _ => false
  | .setSd _ => false
  | .setPsm _ => false
  | .setPsmen _ => false
  | .setPower _ => false
  | .setThrh _ => false
  | .setThrl _ => false
  | .sample _ _ => false
  | .getGain => false
  | .getIt => false
  | .getPers => false
  | .getInten => false
  | .getSd => false
  | .getPsm => false
  | .getPsmen => false
  | .getPower => false
  | .getThrh => false
  | .getThrl => false
  | .getAls => false
  | .getWhite => false
  | .getEvent => false
  | .luxRes => false
  | .luxOvf => false
  | .hlc _ => false
  | .raw2lux _ => false
  | .lux => false
  | .isOvf => false
  | .isUnf => false
  | .refresh => false
  | .classify => false
  | .gainUp => false
  | .gainDn => false
  | .itUp => false
  | .itDn => false
  | .calibrate => false
  | .pollEvent => false
  | .busConf _ _ _ _ _ => false
  | .busThrHi _ => false
  | .busThrLo _ => false
  | .busPsm _ _ => false
  | .busAls _ => false
  | .busWhite _ => false
  | .busInt _ _ => false

/-- The nine single-field setters, in both their forms (41_device_state_ops R130 to R136, R138, R139). -/
def isSetter : Instr → Bool
  | .packGainE _ => false
  | .packGainF _ => false
  | .packItE _ => false
  | .packItF _ => false
  | .packPersE _ => false
  | .packPersF _ => false
  | .packInten _ => false
  | .packSd _ => false
  | .packPsm _ => false
  | .packPsmen _ => false
  | .packThr _ => false
  | .unpackGain _ => false
  | .unpackIt _ => false
  | .unpackPers _ => false
  | .unpackInten _ => false
  | .unpackSd _ => false
  | .unpackPsm _ => false
  | .unpackPsmen _ => false
  | .unpackEvent _ => false
  | .confWord => false
  | .psmWord => false
  | .setGainE _ => true
  | .setGainF _ => true
  | .setItE _ => true
  | .setItF _ => true
  | .setPersE _ => true
  | .setPersF _ => true
  | .setInten _ => true
  | .setSd _ => true
  | .setPsm _ => true
  | .setPsmen _ => true
  | .setPower _ => false
  | .setThrh _ => true
  | .setThrl _ => true
  | .sample _ _ => false
  | .getGain => false
  | .getIt => false
  | .getPers => false
  | .getInten => false
  | .getSd => false
  | .getPsm => false
  | .getPsmen => false
  | .getPower => false
  | .getThrh => false
  | .getThrl => false
  | .getAls => false
  | .getWhite => false
  | .getEvent => false
  | .luxRes => false
  | .luxOvf => false
  | .hlc _ => false
  | .raw2lux _ => false
  | .lux => false
  | .isOvf => false
  | .isUnf => false
  | .refresh => false
  | .classify => false
  | .gainUp => false
  | .gainDn => false
  | .itUp => false
  | .itDn => false
  | .calibrate => false
  | .pollEvent => false
  | .busConf _ _ _ _ _ => false
  | .busThrHi _ => false
  | .busThrLo _ => false
  | .busPsm _ _ => false
  | .busAls _ => false
  | .busWhite _ => false
  | .busInt _ _ => false

/-- Result form pk: the bit pattern in 15:0 and the command code in 23:16 (30_encoding R83). -/
def packed (code : Code) (bits : Word) : Arg := 0#40 ++ code ++ bits

/-- The power of two that scales a lux base at a gain: the ratio 16, 8, 2 or 1 (42_illuminance_ops R170). -/
def gainExponent : Gain → Nat
  | .eighth => 4 | .quarter => 3 | .one => 1 | .two => 0

/-- The power of two that scales a lux base at an integration time: the ratio 32, 16, 8, 4, 2 or 1. -/
def itExponent : IntegrationTime → Nat
  | .ms25 => 5 | .ms50 => 4 | .ms100 => 3 | .ms200 => 2 | .ms400 => 1 | .ms800 => 0

/-- LOWER_END of a count (43_autorange_ops R190). -/
def LowerEnd (g : Gain) (t : IntegrationTime) (count : Word) : Prop :=
  count.toNat < 100 ∧ (g ≠ .two ∨ t ≠ .ms800)

/-- UPPER_END of a count (43_autorange_ops R190). -/
def UpperEnd (g : Gain) (t : IntegrationTime) (count : Word) : Prop :=
  10000 < count.toNat ∧ (g ≠ .eighth ∨ t ≠ .ms25)

/-- The setting CALIBRATE goes to on UPPER_END: integration time down to 100 ms, then gain to its minimum, then
integration time to its minimum (43_autorange_ops R196, R197). -/
def upperStep : Gain → IntegrationTime → Option (Gain × IntegrationTime)
  | g, .ms800 => some (g, .ms400)
  | g, .ms400 => some (g, .ms200)
  | g, .ms200 => some (g, .ms100)
  | .two, t => some (.one, t)
  | .one, t => some (.quarter, t)
  | .quarter, t => some (.eighth, t)
  | .eighth, .ms100 => some (.eighth, .ms50)
  | .eighth, .ms50 => some (.eighth, .ms25)
  | .eighth, .ms25 => none

/-- The setting CALIBRATE goes to on LOWER_END: integration time up to 100 ms, then gain to its maximum, then
integration time to its maximum (43_autorange_ops R196, R197). -/
def lowerStep : Gain → IntegrationTime → Option (Gain × IntegrationTime)
  | g, .ms25 => some (g, .ms50)
  | g, .ms50 => some (g, .ms100)
  | .eighth, t => some (.quarter, t)
  | .quarter, t => some (.one, t)
  | .one, t => some (.two, t)
  | .two, .ms100 => some (.two, .ms200)
  | .two, .ms200 => some (.two, .ms400)
  | .two, .ms400 => some (.two, .ms800)
  | .two, .ms800 => none

/-- The state in which CALIBRATE goes on after one adjustment: the count is stored, the new setting is stored, its CONF
word is on the bus trace and in the sensor, and `rest` are the answers to come. -/
def State.afterAdjustment (s : State) (count : Word) (setting : Gain × IntegrationTime) (rest : List Answer) : State :=
  let d := { s.dev with als := some count, gain := setting.1, it := setting.2 }
  { s with
    dev := d
    answers := rest
    trace := s.trace ++ [.read .als (.ok count), .write .conf (confLayout s.cfg d) none]
    sensor := sensorWrite s.sensor 0 (confLayout s.cfg d) }

end Sys2Proof.Machine
end

