-- ==== Sys2Proof/Certificates/Slice0/Obligations.lean ====
section
/-! DEFINITION. The statements for the provers. Each docstring names the rule it formalises, and, where the rule rests
on a decision or a derivation of the spec's own or on a choice of the model, says so. `s.answered c r` is `s` with
one more response and nothing else changed; `s.afterWrite …` and `SetterEffect` (Safety.lean) give whole next
states, so that each such equation is also its own frame. -/

section
open Sys2Proof Sys2Proof.Machine

/-! ### Reset, the ports and the step -/

/-- 10_state section 6. The UNSET event and the idle sequencer are the spec's decisions D16 and D18; that the ports
are empty is log 2. -/
def Obligations.ResetState : Prop :=
  State.reset.dev.gain = .one ∧ State.reset.dev.it = .ms100 ∧ State.reset.dev.pers = .p1 ∧
  State.reset.dev.intEn = false ∧ State.reset.dev.sd = false ∧ State.reset.dev.psm = .m1 ∧
  State.reset.dev.psmEn = false ∧ State.reset.dev.thrHi = none ∧ State.reset.dev.thrLo = none ∧
  State.reset.dev.als = none ∧ State.reset.dev.white = none ∧ State.reset.dev.event = none ∧
  State.reset.seq = .idle ∧ (∀ reg, State.reset.sensorHolds reg = none) ∧
  powerStatus State.reset.dev = .on

/-- 70_reset_and_hazards section 1, decision D18; what an abandoned write leaves in the sensor and that the ports and the
logs stay are the model's choice, log 10. -/
def Obligations.ResetInputAbandons : Prop :=
  ∀ s : State, s.resetIn = true → Memory.wf s.sensor = true →
    ∃ t, step s = .next t ∧ t.dev = State.reset.dev ∧ t.seq = .idle ∧ t.resetIn = false ∧
      t.responses = s.responses ∧ t.trace = s.trace ∧ t.cmds = s.cmds ∧ t.answers = s.answers ∧ t.cfg = s.cfg ∧
      ∀ reg, t.sensorHolds reg = if s.awaitsWriteOf reg then none else s.sensorHolds reg

/-- 30_encoding sections 4 and 6, 10_state section 3: a step runs the decoded instruction, the head of the command port
of an idle block. That the transaction outstanding and answered `ok` is run as the instruction of its bus row is the
model's choice (log 8), as are the two ports held as lists (log 2); the step takes the word from its port and adds
nothing else. -/
def Obligations.StepRunsTheInstruction : Prop :=
  (∀ (s : State) (w : Command) (rest : List Command) (i : Instr), s.resetIn = false → s.seq = .idle →
    s.cmds = w :: rest → decode (.command w) = .ok i → step s = exec i { s with cmds := rest }) ∧
  (∀ (s : State) (q : Request) (k : Resume) (w : Word) (rest : List Answer) (i : Instr), s.resetIn = false →
    s.seq = .waiting q k → s.requestOk = true → s.answers = .ok w :: rest →
    decode (.bus (transactionRow q w)) = .ok i → step s = exec i { s with answers := rest })

/-- 30_encoding section 7, 60_exceptions section 1, decision D24: a word that matches no row of the opcode table is
answered ILLEGAL_COMMAND and changes nothing else. -/
def Obligations.IllegalCommandAnswered : Prop :=
  ∀ (s : State) (w : Command) (rest : List Command), s.resetIn = false → s.seq = .idle → s.cmds = w :: rest →
    (∀ row ∈ commandRows, w &&& row.2 ≠ row.1) →
    step s = .next ({ s with cmds := rest }.answered .illegalCommand 0#64)

/-- 60_exceptions section 1, decision D13: `err(t)` ends the operation in flight, whichever it is; no field of S
changes, the response carries `t`, and a failed write leaves the register unknown. -/
def Obligations.TransportErrorEndsTheOperation : Prop :=
  ∀ (s : State) (q : Request) (k : Resume) (e : TransportError) (rest : List Answer), s.resetIn = false →
    s.seq = .waiting q k → s.answers = .err e :: rest → Memory.wf s.sensor = true →
    ∃ t, step s = .next t ∧ t.dev = s.dev ∧ t.seq = .idle ∧ t.answers = rest ∧
      t.responses = s.responses ++ [⟨.transportError, e.setWidth 64⟩] ∧
      t.trace = s.trace ++ [match q with
        | .read reg => .read reg (.err e)
        | .write reg w => .write reg w (some e)] ∧
      t.cmds = s.cmds ∧ t.resetIn = false ∧ t.cfg = s.cfg ∧
      ∀ reg, t.sensorHolds reg = if s.awaitsWriteOf reg then none else s.sensorHolds reg

/-- 70_reset_and_hazards sections 1 and 3: the block waits for a command, and waits without bound for the transport; that
such a wait is a step to the same state is log 1. -/
def Obligations.StepWaits : Prop :=
  ∀ s : State, s.resetIn = false →
    (s.seq = .idle → s.cmds = [] → step s = .next s) ∧ (s.seq ≠ .idle → s.answers = [] → step s = .next s)

/-- 30_encoding section 6, decision D32: a command is not run while an operation is in flight, and no step then takes a
command from the port; that the held command leaves the state as it is is log 9. -/
def Obligations.CommandPortHolds : Prop :=
  (∀ (i : Instr) (s : State), isBusRow i = false → s.seq ≠ .idle → exec i s = .next s) ∧
  (∀ s t : State, s.resetIn = false → s.seq ≠ .idle → step s = .next t → t.cmds = s.cmds)

/-- The model's own placing of an instruction (log 15): the very next step runs it. -/
def Obligations.PlacedInstructionRuns : Prop :=
  (∀ (s : State) (w : Nat) (i : Instr), decodeTableWord 72 w = some i →
    step (s.withFetchWord 72 w) = exec i { s with resetIn := false, seq := .idle }) ∧
  (∀ (s : State) (w : Nat) (i : Instr), decodeTableWord 24 w = some i →
    step (s.withFetchWord 24 w) = exec i { s.withFetchWord 24 w with answers := s.answers } ∧
    (s.withFetchWord 24 w).dev = s.dev ∧ (s.withFetchWord 24 w).seq ≠ .idle)

/-! ### Decoding -/

/-- 30_encoding sections 1, 4, 5 and 6: decoding the word of a well-formed instruction gives it back. -/
def Obligations.DecodeOfEncode : Prop := ∀ i : Instr, i.wf = true → decode (encode i) = .ok i

/-- 30_encoding sections 1, 4, 5 and 6: every word has one meaning, and it is well formed. -/
def Obligations.EncodeOfDecode : Prop :=
  ∀ (w : PortWord) (i : Instr), decode w = .ok i → encode i = w ∧ i.wf = true

/-- Words written out from 30_encoding sections 1, 4 and 6 and their instructions; a sanity statement. -/
def Obligations.DecodeWords : Prop :=
  decode (.command 0x0A0000000000000300#72) = .ok (.unpackIt 0x0300#16) ∧
  decode (.command 0xA14069000000000000#72) = .ok (.setItF 0x4069000000000000#64) ∧
  decode (.command 0x29FFFFFFFFFFFFFFFF#72) = .ok (.setThrl (-1)) ∧
  decode (.command 0x2F0000000000000003#72) = .ok (.sample true true) ∧
  decode (.command 0x4303E8000000000000#72) = .error (.reservedArgBits 0x43#8) ∧
  decode (.command 0x4300000000000003E8#72) = .ok (.raw2lux 0x03E8#16) ∧
  decode (.command 0x550000000000000000#72) = .ok .calibrate ∧
  decode (.command 0x600000000000000000#72) = .ok .pollEvent ∧
  decode (.bus 0x001B33#24) = .ok (.busConf 0b11#2 0b1100#4 0b11#2 1#1 1#1) ∧
  decode (.bus 0x068000#24) = .ok (.busInt 0b10#2 0#14)

/-- spec/opcode_table.json and 30_encoding sections 6 and 7 (decisions D4, D24): a command word, or a bus row, is decoded
exactly when it matches a row of the table under that row's mask. -/
def Obligations.DecodedExactlyTheTable : Prop :=
  (∀ w : Command, (∃ i, decodeCommand w = .ok i) ↔ ∃ row ∈ commandRows, w &&& row.2 = row.1) ∧
  (∀ w : BusRow, (∃ i, decodeBus w = .ok i) ↔ ∃ row ∈ busRows, w &&& row.2 = row.1)

/-! ### Codec operations -/

/-- R101, R102, R103: both forms of PACK.GAIN, PACK.IT and PACK.PERS, with their encodings. -/
def Obligations.PackEnumerators : Prop :=
  ∀ s : State, s.seq = .idle →
    (∀ k < 16, decode (.command (commandWord 0x01#8 (BitVec.ofNat 64 k))) = .ok (.packGainE k) ∧
      decode (.command (commandWord 0x02#8 (BitVec.ofNat 64 k))) = .ok (.packItE k) ∧
      decode (.command (commandWord 0x03#8 (BitVec.ofNat 64 k))) = .ok (.packPersE k)) ∧
    (∀ x, decode (.command (commandWord 0x81#8 x)) = .ok (.packGainF x) ∧
      decode (.command (commandWord 0x82#8 x)) = .ok (.packItF x) ∧
      decode (.command (commandWord 0x83#8 x)) = .ok (.packPersF x)) ∧
    (∀ g, (∀ k, [Gain.eighth, .quarter, .one, .two][k]? = some g → exec (.packGainE k) s =
        .next (s.answered .ok (packed 0x00#8 ((gainCode s.cfg g).setWidth 16 <<< 11)))) ∧
      (∀ x, matchGain x = some g → exec (.packGainF x) s =
        .next (s.answered .ok (packed 0x00#8 ((gainCode s.cfg g).setWidth 16 <<< 11))))) ∧
    (∀ k > 3, exec (.packGainE k) s = .next (s.answered .invalidValue 0#64)) ∧
    (∀ x, matchGain x = none → exec (.packGainF x) s = .next (s.answered .invalidValue 0#64)) ∧
    (∀ t, (∀ k, [IntegrationTime.ms25, .ms50, .ms100, .ms200, .ms400, .ms800][k]? = some t → exec (.packItE k) s =
        .next (s.answered .ok (packed 0x00#8 ((itCode s.cfg t).setWidth 16 <<< 6)))) ∧
      (∀ x, matchIt x = some t → exec (.packItF x) s =
        .next (s.answered .ok (packed 0x00#8 ((itCode s.cfg t).setWidth 16 <<< 6))))) ∧
    (∀ k > 5, exec (.packItE k) s = .next (s.answered .invalidValue 0#64)) ∧
    (∀ x, matchIt x = none → exec (.packItF x) s = .next (s.answered .invalidValue 0#64)) ∧
    (∀ c, (∀ k, [Persistence.p1, .p2, .p4, .p8][k]? = some c → exec (.packPersE k) s =
        .next (s.answered .ok (packed 0x00#8 ((persCode s.cfg c).setWidth 16 <<< 4)))) ∧
      (∀ x, matchPers x = some c → exec (.packPersF x) s =
        .next (s.answered .ok (packed 0x00#8 ((persCode s.cfg c).setWidth 16 <<< 4))))) ∧
    (∀ k > 3, exec (.packPersE k) s = .next (s.answered .invalidValue 0#64)) ∧
    (∀ x, matchPers x = none → exec (.packPersF x) s = .next (s.answered .invalidValue 0#64))

/-- R104, R105, R106, R107: PACK of the two flags of CONF, and of the mode and the enable of the separate register,
with their encodings. -/
def Obligations.PackFlagsAndMode : Prop :=
  ∀ s : State, s.seq = .idle →
    (∀ b : Bool,
      decode (.command (commandWord 0x04#8 (BitVec.ofNat 64 b.toNat))) = .ok (.packInten b) ∧
      decode (.command (commandWord 0x05#8 (BitVec.ofNat 64 b.toNat))) = .ok (.packSd b) ∧
      decode (.command (commandWord 0x07#8 (BitVec.ofNat 64 b.toNat))) = .ok (.packPsmen b) ∧
      exec (.packInten b) s = .next (s.answered .ok (packed 0x00#8 (if b then 0x0002#16 else 0x0000#16))) ∧
      exec (.packSd b) s = .next (s.answered .ok (packed 0x00#8 (if b then 0x0001#16 else 0x0000#16))) ∧
      exec (.packPsmen b) s = .next (s.answered .ok (packed 0x03#8 (if b then 0x0001#16 else 0x0000#16)))) ∧
    (∀ a : Arg, decode (.command (commandWord 0x06#8 a)) = .ok (.packPsm a.toInt)) ∧
    (∀ m, exec (.packPsm (psmNumber m)) s =
      .next (s.answered .ok (packed 0x03#8 ((psmCode s.cfg m).setWidth 16 <<< 1)))) ∧
    (∀ n : Int, n ∉ [1, 2, 3, 4] → exec (.packPsm n) s = .next (s.answered .invalidValue 0#64))

/-- R108: PACK.THR of any integer is its floor modulus by 65536, with its encoding. -/
def Obligations.PackThreshold : Prop :=
  ∀ s : State, s.seq = .idle →
    (∀ a : Arg, decode (.command (commandWord 0x08#8 a)) = .ok (.packThr a.toInt)) ∧
    ∀ n : Int, exec (.packThr n) s = .next (s.answered .ok (BitVec.ofNat 64 (n % 65536).toNat))

/-- R109, R110, R111, R114: a decoded code is the enumerator whose table code it is, an undefined integration-time code is
INVALID_VALUE, and other bits are ignored. -/
def Obligations.UnpackEnumerators : Prop :=
  ∀ (s : State) (w : Word), s.seq = .idle → paramsOk s.cfg = true →
    decode (.command (commandWord 0x09#8 (w.setWidth 64))) = .ok (.unpackGain w) ∧
    decode (.command (commandWord 0x0A#8 (w.setWidth 64))) = .ok (.unpackIt w) ∧
    decode (.command (commandWord 0x0B#8 (w.setWidth 64))) = .ok (.unpackPers w) ∧
    decode (.command (commandWord 0x0E#8 (w.setWidth 64))) = .ok (.unpackPsm w) ∧
    (∃ g, gainCode s.cfg g = w.extractLsb' 11 2 ∧ exec (.unpackGain w) s = .next (s.answered .ok (gainDouble g))) ∧
    (∀ t, itCode s.cfg t = w.extractLsb' 6 4 → exec (.unpackIt w) s = .next (s.answered .ok (itDouble t))) ∧
    ((∀ t, itCode s.cfg t ≠ w.extractLsb' 6 4) → exec (.unpackIt w) s = .next (s.answered .invalidValue 0#64)) ∧
    (∃ c, persCode s.cfg c = w.extractLsb' 4 2 ∧ exec (.unpackPers w) s = .next (s.answered .ok (persDouble c))) ∧
    (∃ m, psmCode s.cfg m = w.extractLsb' 1 2 ∧
      exec (.unpackPsm w) s = .next (s.answered .ok (BitVec.ofNat 64 (psmNumber m))))

/-- R112, R113, R115, R116: the one-bit fields, and the event field by the fixed table of R69 (bit 15 low, bit 14 high; the
result's code is the field's own). -/
def Obligations.UnpackFlagsAndEvent : Prop :=
  ∀ (s : State) (w : Word), s.seq = .idle →
    decode (.command (commandWord 0x0C#8 (w.setWidth 64))) = .ok (.unpackInten w) ∧
    decode (.command (commandWord 0x0D#8 (w.setWidth 64))) = .ok (.unpackSd w) ∧
    decode (.command (commandWord 0x0F#8 (w.setWidth 64))) = .ok (.unpackPsmen w) ∧
    decode (.command (commandWord 0x10#8 (w.setWidth 64))) = .ok (.unpackEvent w) ∧
    exec (.unpackInten w) s = .next (s.answered .ok (if w.getLsbD 1 then 1#64 else 0#64)) ∧
    exec (.unpackSd w) s = .next (s.answered .ok (if w.getLsbD 0 then 1#64 else 0#64)) ∧
    exec (.unpackPsmen w) s = .next (s.answered .ok (if w.getLsbD 0 then 1#64 else 0#64)) ∧
    exec (.unpackEvent w) s = .next (s.answered .ok ((w >>> 14).setWidth 64)) ∧
    (decodeEvent w = .evLow ∨ decodeEvent w = .evBoth ↔ w.getLsbD 15 = true) ∧
    (decodeEvent w = .evHigh ∨ decodeEvent w = .evBoth ↔ w.getLsbD 14 = true)

/-- R117, R118: CONF.WORD and PSM.WORD answer the whole images of R66 and R67, laid out as R60 draws them, zero in every
unassigned bit. -/
def Obligations.WholeWords : Prop :=
  decode (.command 0x110000000000000000#72) = .ok .confWord ∧
  decode (.command 0x120000000000000000#72) = .ok .psmWord ∧
  ∀ s : State, s.seq = .idle →
    exec .confWord s = .next (s.answered .ok ((0#3 ++ gainCode s.cfg s.dev.gain ++ 0#1 ++ itCode s.cfg s.dev.it ++
      persCode s.cfg s.dev.pers ++ 0#2 ++ BitVec.ofBool s.dev.intEn ++ BitVec.ofBool s.dev.sd : Word).setWidth 64)) ∧
    exec .psmWord s = .next (s.answered .ok ((0#13 ++ psmCode s.cfg s.dev.psm ++
      BitVec.ofBool s.dev.psmEn : Word).setWidth 64))

/-- 30_encoding section 2 (R71, derived by the spec from R62, R63, R66): decode undoes encode, also with the other fields
of the register present. -/
def Obligations.FieldsRoundTrip : Prop :=
  ∀ p : Params, paramsOk p = true →
    (∀ g, decodeGain p (encodeField fieldGain (gainCode p g)) = some g) ∧
    (∀ t, decodeIt p (encodeField fieldIt (itCode p t)) = some t) ∧
    (∀ c, decodePers p (encodeField fieldPers (persCode p c)) = some c) ∧
    (∀ m, decodePsm p (encodeField fieldPsm (psmCode p m)) = some m) ∧
    (∀ d : DeviceState, decodeGain p (confImage p d) = some d.gain ∧ decodeIt p (confImage p d) = some d.it ∧
      decodePers p (confImage p d) = some d.pers ∧ decodeFlag fieldIntEn (confImage p d) = d.intEn ∧
      decodeFlag fieldSd (confImage p d) = d.sd ∧ decodePsm p (psmImage p d) = some d.psm ∧
      decodeFlag fieldPsmEn (psmImage p d) = d.psmEn)

/-- 30_encoding section 2 (R70, decision D9): a number matches an enumerator exactly when it is within a relative 10^-9 of
it, in exact arithmetic; a persistence exactly when it is equal; a NaN or an infinity matches nothing. -/
def Obligations.MatchingIsCloseness : Prop :=
  ∀ x : Arg,
    (∀ q : ℚ, numValue (numOfBits x) = some q →
      (∀ g, matchGain x = some g ↔ |q - gainValue g| ≤ max |q| |gainValue g| / 10 ^ 9) ∧
      (∀ t, matchIt x = some t ↔ |q - (itMillis t : ℚ)| ≤ max |q| |(itMillis t : ℚ)| / 10 ^ 9) ∧
      (∀ c, matchPers x = some c ↔ q = (persCount c : ℚ))) ∧
    (numValue (numOfBits x) = none → matchGain x = none ∧ matchIt x = none ∧ matchPers x = none)

/-- R100: a codec operation writes no field and uses no bus, answers OK or INVALID_VALUE, and is a function of its
argument (and of the tables) alone, CONF.WORD and PSM.WORD of S alone. -/
def Obligations.CodecFamily : Prop :=
  ∀ (i : Instr) (s : State), isCodec i = true → s.seq = .idle →
    ∃ r : Response, (r.status = .ok ∨ r.status = .invalidValue) ∧
      exec i s = .next { s with responses := s.responses ++ [r] } ∧
      ∀ s' : State, s'.seq = .idle → s'.cfg = s.cfg → (s'.dev = s.dev ∨ (i ≠ .confWord ∧ i ≠ .psmWord)) →
        exec i s' = .next { s' with responses := s'.responses ++ [r] }

/-- 20_memory section 1, last paragraph of R44 (derived by the spec): the codec, the getters, the illuminance operations and
CLASSIFY answer one response and change nothing else at all. -/
def Obligations.PureOperationsOnlyAnswer : Prop :=
  ∀ (i : Instr) (s : State), isPure i = true → s.seq = .idle →
    ∃ r : Response, exec i s = .next { s with responses := s.responses ++ [r] }

/-! ### Device-state operations -/

/-- 41_device_state_ops sections 1 and 2 (R129 to R132): the three setters that match an operand, in both forms, with their
encodings. That a failed write leaves the new value in S is decision D13; that the sensor's known content stays as it is
while the write is unanswered is the model's choice (log 20). -/
def Obligations.SetEnumerators : Prop :=
  ∀ s : State, s.seq = .idle →
    (∀ k < 16, decode (.command (commandWord 0x20#8 (BitVec.ofNat 64 k))) = .ok (.setGainE k) ∧
      decode (.command (commandWord 0x21#8 (BitVec.ofNat 64 k))) = .ok (.setItE k) ∧
      decode (.command (commandWord 0x22#8 (BitVec.ofNat 64 k))) = .ok (.setPersE k)) ∧
    (∀ x, decode (.command (commandWord 0xA0#8 x)) = .ok (.setGainF x) ∧
      decode (.command (commandWord 0xA1#8 x)) = .ok (.setItF x) ∧
      decode (.command (commandWord 0xA2#8 x)) = .ok (.setPersF x)) ∧
    (∀ (g : Gain) (i : Instr), (∃ k, [Gain.eighth, .quarter, .one, .two][k]? = some g ∧ i = .setGainE k) ∨
        (∃ x, matchGain x = some g ∧ i = .setGainF x) →
      SetterEffect (exec i s) s (s.dev.gain = g) { s.dev with gain := g } .conf
        (confLayout s.cfg { s.dev with gain := g })) ∧
    (∀ k > 3, exec (.setGainE k) s = .next (s.answered .invalidValue 0#64)) ∧
    (∀ x, matchGain x = none → exec (.setGainF x) s = .next (s.answered .invalidValue 0#64)) ∧
    (∀ (t : IntegrationTime) (i : Instr),
        (∃ k, [IntegrationTime.ms25, .ms50, .ms100, .ms200, .ms400, .ms800][k]? = some t ∧ i = .setItE k) ∨
        (∃ x, matchIt x = some t ∧ i = .setItF x) →
      SetterEffect (exec i s) s (s.dev.it = t) { s.dev with it := t } .conf
        (confLayout s.cfg { s.dev with it := t })) ∧
    (∀ k > 5, exec (.setItE k) s = .next (s.answered .invalidValue 0#64)) ∧
    (∀ x, matchIt x = none → exec (.setItF x) s = .next (s.answered .invalidValue 0#64)) ∧
    (∀ (c : Persistence) (i : Instr), (∃ k, [Persistence.p1, .p2, .p4, .p8][k]? = some c ∧ i = .setPersE k) ∨
        (∃ x, matchPers x = some c ∧ i = .setPersF x) →
      SetterEffect (exec i s) s (s.dev.pers = c) { s.dev with pers := c } .conf
        (confLayout s.cfg { s.dev with pers := c })) ∧
    (∀ k > 3, exec (.setPersE k) s = .next (s.answered .invalidValue 0#64)) ∧
    (∀ x, matchPers x = none → exec (.setPersF x) s = .next (s.answered .invalidValue 0#64))

/-- 41_device_state_ops sections 1 to 3 (R129, R133, R134, R136): the three setters of a flag, with their encodings. That a
failed write leaves the new value in S is decision D13; that the sensor's known content stays as it is while the write is
unanswered is the model's choice (log 20). -/
def Obligations.SetFlags : Prop :=
  ∀ (s : State) (b : Bool), s.seq = .idle →
    decode (.command (commandWord 0x23#8 (BitVec.ofNat 64 b.toNat))) = .ok (.setInten b) ∧
    decode (.command (commandWord 0x24#8 (BitVec.ofNat 64 b.toNat))) = .ok (.setSd b) ∧
    decode (.command (commandWord 0x26#8 (BitVec.ofNat 64 b.toNat))) = .ok (.setPsmen b) ∧
    SetterEffect (exec (.setInten b) s) s (s.dev.intEn = b) { s.dev with intEn := b } .conf
      (confLayout s.cfg { s.dev with intEn := b }) ∧
    SetterEffect (exec (.setSd b) s) s (s.dev.sd = b) { s.dev with sd := b } .conf
      (confLayout s.cfg { s.dev with sd := b }) ∧
    SetterEffect (exec (.setPsmen b) s) s (s.dev.psmEn = b) { s.dev with psmEn := b } .psm
      (psmLayout s.cfg { s.dev with psmEn := b })

/-- 41_device_state_ops sections 1 and 3 (R129, R135): SET.PSM, whether or not power saving is enabled, with its encoding.
That a failed write leaves the new value in S is decision D13; that the sensor's known content stays as it is while the
write is unanswered is the model's choice (log 20). -/
def Obligations.SetMode : Prop :=
  ∀ s : State, s.seq = .idle →
    (∀ a : Arg, decode (.command (commandWord 0x25#8 a)) = .ok (.setPsm a.toInt)) ∧
    (∀ m, SetterEffect (exec (.setPsm (psmNumber m)) s) s (s.dev.psm = m) { s.dev with psm := m } .psm
      (psmLayout s.cfg { s.dev with psm := m })) ∧
    (∀ n : Int, n ∉ [1, 2, 3, 4] → exec (.setPsm n) s = .next (s.answered .invalidValue 0#64))

/-- 41_device_state_ops section 4 (R138, R139, decision D12): the threshold is compared and stored after truncation; UNSET
equals no value; with the encodings. The failed write is decision D13, the sensor's known content while the write is
unanswered the model's choice (log 20). -/
def Obligations.SetThresholds : Prop :=
  (∀ a : Arg, decode (.command (commandWord 0x28#8 a)) = .ok (.setThrh a.toInt) ∧
    decode (.command (commandWord 0x29#8 a)) = .ok (.setThrl a.toInt)) ∧
  ∀ (s : State) (n : Int), s.seq = .idle →
    SetterEffect (exec (.setThrh n) s) s (s.dev.thrHi = some (BitVec.ofNat 16 (n % 65536).toNat))
      { s.dev with thrHi := some (BitVec.ofNat 16 (n % 65536).toNat) } .thrHi (BitVec.ofNat 16 (n % 65536).toNat) ∧
    SetterEffect (exec (.setThrl n) s) s (s.dev.thrLo = some (BitVec.ofNat 16 (n % 65536).toNat))
      { s.dev with thrLo := some (BitVec.ofNat 16 (n % 65536).toNat) } .thrLo (BitVec.ofNat 16 (n % 65536).toNat)

/-- 41_device_state_ops section 3 (R137, decision D15): no write, one, or two, CONF before PSM, the PSM part not attempted
after a failed CONF write. `t` is S with what the status asks for. With the encoding. The failed writes are decision D13,
the sensor's known content while a write is unanswered the model's choice (log 20). -/
def Obligations.SetPower : Prop :=
  (∀ k < 8, decode (.command (commandWord 0x27#8 (BitVec.ofNat 64 k))) = .ok (.setPower k)) ∧
  ∀ s : State, s.seq = .idle →
    (∀ k > 5, exec (.setPower k) s = .next (s.answered .invalidValue 0#64)) ∧
    ∀ (k : Nat) (p : PowerStatus),
      [PowerStatus.on, .save .m1, .save .m2, .save .m3, .save .m4, .off][k]? = some p →
      let t := powerTarget s.dev p
      let d := { s.dev with sd := t.sd }
      (t.sd = s.dev.sd →
        SetterEffect (exec (.setPower k) s) s (t.psmEn = s.dev.psmEn ∧ t.psm = s.dev.psm) t .psm
          (psmLayout s.cfg t)) ∧
      (t.sd ≠ s.dev.sd → t.psmEn = s.dev.psmEn → t.psm = s.dev.psm →
        ∀ v rest, s.answers = .ok v :: rest →
          exec (.setPower k) s = .next (s.afterWrite t .conf (confLayout s.cfg t) none rest)) ∧
      (t.sd ≠ s.dev.sd →
        (∀ e rest, s.answers = .err e :: rest →
          exec (.setPower k) s = .next (s.afterWrite d .conf (confLayout s.cfg d) (some e) rest)) ∧
        (s.answers = [] → exec (.setPower k) s = .next { s with
          dev := d
          seq := .waiting (.write .conf (confLayout s.cfg d)) (.powerSaving t.psmEn t.psm) })) ∧
      (t.sd ≠ s.dev.sd → ¬(t.psmEn = s.dev.psmEn ∧ t.psm = s.dev.psm) →
        let u : State := { s with
          dev := t
          trace := s.trace ++ [.write .conf (confLayout s.cfg t) none]
          sensor := sensorWrite s.sensor 0 (confLayout s.cfg t) }
        (∀ v v' rest, s.answers = .ok v :: .ok v' :: rest →
          exec (.setPower k) s = .next (u.afterWrite t .psm (psmLayout s.cfg t) none rest)) ∧
        (∀ v e rest, s.answers = .ok v :: .err e :: rest →
          exec (.setPower k) s = .next (u.afterWrite t .psm (psmLayout s.cfg t) (some e) rest)) ∧
        (∀ v, s.answers = [.ok v] →
          exec (.setPower k) s = .next { u with
            answers := []
            seq := .waiting (.write .psm (psmLayout s.cfg t)) .respond }))

/-- 70_reset_and_hazards section 3 (R261, R267): a single-field setter given again right after it ended, well or with a
failed write, only answers: it is silent on the bus and changes no field. -/
def Obligations.RepeatedSetterIsSilent : Prop :=
  ∀ (i : Instr) (s t : State), isSetter i = true → s.seq = .idle → exec i s = .next t → t.seq = .idle →
    ∃ r : Response, exec i t = .next { t with responses := t.responses ++ [r] }

/-- 41_device_state_ops section 5 (R142, decision D14): each combination of the two flags, each answer of the transport. -/
def Obligations.SampleReads : Prop :=
  ∀ s : State, s.seq = .idle →
    exec (.sample false false) s = .next (s.answered .empty 0#64) ∧
    (∀ a rest, s.answers = .ok a :: rest → exec (.sample true false) s = .next { s with
      dev := { s.dev with als := some a }
      answers := rest
      trace := s.trace ++ [.read .als (.ok a)]
      responses := s.responses ++ [⟨.ok, a.setWidth 64⟩] }) ∧
    (∀ w rest, s.answers = .ok w :: rest → exec (.sample false true) s = .next { s with
      dev := { s.dev with white := some w }
      answers := rest
      trace := s.trace ++ [.read .white (.ok w)]
      responses := s.responses ++ [⟨.ok, w.setWidth 64 <<< 16⟩] }) ∧
    (∀ a w rest, s.answers = .ok a :: .ok w :: rest → exec (.sample true true) s = .next { s with
      dev := { s.dev with als := some a, white := some w }
      answers := rest
      trace := s.trace ++ [.read .als (.ok a), .read .white (.ok w)]
      responses := s.responses ++ [⟨.ok, (w ++ a).setWidth 64⟩] }) ∧
    (∀ e rest b, s.answers = .err e :: rest → exec (.sample true b) s = .next { s with
      answers := rest
      trace := s.trace ++ [.read .als (.err e)]
      responses := s.responses ++ [⟨.transportError, e.setWidth 64⟩] }) ∧
    (∀ e rest, s.answers = .err e :: rest → exec (.sample false true) s = .next { s with
      answers := rest
      trace := s.trace ++ [.read .white (.err e)]
      responses := s.responses ++ [⟨.transportError, e.setWidth 64⟩] }) ∧
    (∀ a e rest, s.answers = .ok a :: .err e :: rest → exec (.sample true true) s = .next { s with
      dev := { s.dev with als := some a }
      answers := rest
      trace := s.trace ++ [.read .als (.ok a), .read .white (.err e)]
      responses := s.responses ++ [⟨.transportError, e.setWidth 64⟩] }) ∧
    (∀ b, s.answers = [] →
      exec (.sample true b) s = .next { s with seq := .waiting (.read .als) (.sampleAls b) }) ∧
    (s.answers = [] →
      exec (.sample false true) s = .next { s with seq := .waiting (.read .white) (.sampleWhite false) }) ∧
    (∀ a, s.answers = [.ok a] → exec (.sample true true) s = .next { s with
      dev := { s.dev with als := some a }
      answers := []
      trace := s.trace ++ [.read .als (.ok a)]
      seq := .waiting (.read .white) (.sampleWhite true) })

/-- R143 to R150: the getters of the fields that always hold a value, with their encodings. -/
def Obligations.GettersAnswer : Prop :=
  ∀ s : State, s.seq = .idle →
    exec .getGain s = .next (s.answered .ok (gainDouble s.dev.gain)) ∧
    exec .getIt s = .next (s.answered .ok (itDouble s.dev.it)) ∧
    exec .getPers s = .next (s.answered .ok (persDouble s.dev.pers)) ∧
    exec .getInten s = .next (s.answered .ok (if s.dev.intEn then 1#64 else 0#64)) ∧
    exec .getSd s = .next (s.answered .ok (if s.dev.sd then 1#64 else 0#64)) ∧
    exec .getPsm s = .next (s.answered .ok (BitVec.ofNat 64 (psmNumber s.dev.psm))) ∧
    exec .getPsmen s = .next (s.answered .ok (if s.dev.psmEn then 1#64 else 0#64)) ∧
    (s.dev.sd = true → exec .getPower s = .next (s.answered .ok 5#64)) ∧
    (s.dev.sd = false → s.dev.psmEn = true →
      exec .getPower s = .next (s.answered .ok (BitVec.ofNat 64 (psmNumber s.dev.psm)))) ∧
    (s.dev.sd = false → s.dev.psmEn = false → exec .getPower s = .next (s.answered .ok 0#64)) ∧
    decode (.command 0x300000000000000000#72) = .ok .getGain ∧
    decode (.command 0x310000000000000000#72) = .ok .getIt ∧
    decode (.command 0x320000000000000000#72) = .ok .getPers ∧
    decode (.command 0x330000000000000000#72) = .ok .getInten ∧
    decode (.command 0x340000000000000000#72) = .ok .getSd ∧
    decode (.command 0x350000000000000000#72) = .ok .getPsm ∧
    decode (.command 0x360000000000000000#72) = .ok .getPsmen ∧
    decode (.command 0x370000000000000000#72) = .ok .getPower

/-- 41_device_state_ops section 6 (R151 to R155, decisions D16, D17): the getters of the fields that can be UNSET answer
NO_DATA then and the field otherwise, never a new sample; with the encodings. -/
def Obligations.UnsettableGettersAnswer : Prop :=
  decode (.command 0x380000000000000000#72) = .ok .getThrh ∧
  decode (.command 0x390000000000000000#72) = .ok .getThrl ∧
  decode (.command 0x3A0000000000000000#72) = .ok .getAls ∧
  decode (.command 0x3B0000000000000000#72) = .ok .getWhite ∧
  decode (.command 0x3C0000000000000000#72) = .ok .getEvent ∧
  ∀ s : State, s.seq = .idle →
    (s.dev.thrHi = none → exec .getThrh s = .next (s.answered .noData 0#64)) ∧
    (∀ w, s.dev.thrHi = some w → exec .getThrh s = .next (s.answered .ok (w.setWidth 64))) ∧
    (s.dev.thrLo = none → exec .getThrl s = .next (s.answered .noData 0#64)) ∧
    (∀ w, s.dev.thrLo = some w → exec .getThrl s = .next (s.answered .ok (w.setWidth 64))) ∧
    (s.dev.als = none → exec .getAls s = .next (s.answered .noData 0#64)) ∧
    (∀ w, s.dev.als = some w → exec .getAls s = .next (s.answered .ok (w.setWidth 64))) ∧
    (s.dev.white = none → exec .getWhite s = .next (s.answered .noData 0#64)) ∧
    (∀ w, s.dev.white = some w → exec .getWhite s = .next (s.answered .ok (w.setWidth 64))) ∧
    (s.dev.event = none → exec .getEvent s = .next (s.answered .noData 0#64)) ∧
    (s.dev.event = some .evNone → exec .getEvent s = .next (s.answered .ok 0#64)) ∧
    (s.dev.event = some .evHigh → exec .getEvent s = .next (s.answered .ok 1#64)) ∧
    (s.dev.event = some .evLow → exec .getEvent s = .next (s.answered .ok 2#64)) ∧
    (s.dev.event = some .evBoth → exec .getEvent s = .next (s.answered .ok 3#64))

/-! ### Illuminance operations -/

/-- 42_illuminance_ops sections 1 and 2: the scale is an exact power of two, so LUX.RES and LUX.OVF answer their base times
it exactly, for every positive base (92_eei_decisions D8), subnormal ones among them; where that is 2^1024 or more, which
only bases far from the defaults reach, an infinity (log 18). For a normal base the word is the base's with the power
added to its exponent. With the encodings. -/
def Obligations.LuxScalesAreExact : Prop :=
  decode (.command 0x400000000000000000#72) = .ok .luxRes ∧
  decode (.command 0x410000000000000000#72) = .ok .luxOvf ∧
  (∀ g t, (2 : ℚ) ^ (gainExponent g + itExponent t) = 2 / gainValue g * (800 / (itMillis t : ℚ))) ∧
  ∀ s : State, s.seq = .idle → ∀ (i : Instr) (b : Arg) (e : Nat),
    (i, b) ∈ [(Instr.luxRes, s.cfg.maxResolutionLux), (.luxOvf, s.cfg.minOverflowLux)] →
    gainExponent s.dev.gain + itExponent s.dev.it = e →
    (∀ v : ℚ, numValue (numOfBits b) = some v → 0 < v →
      (v * 2 ^ e < 2 ^ 1024 → ∃ r : Arg, exec i s = .next (s.answered .ok r) ∧
        numValue (numOfBits r) = some (v * 2 ^ e)) ∧
      (2 ^ 1024 ≤ v * 2 ^ e → exec i s = .next (s.answered .ok 0x7FF0000000000000#64))) ∧
    (b.msb = false → 1 ≤ (b.extractLsb' 52 11).toNat → (b.extractLsb' 52 11).toNat + e < 2047 →
      exec i s = .next (s.answered .ok (b + BitVec.ofNat 64 (e * 2 ^ 52))))

/-- 42_illuminance_ops section 2 (R173, decision D6): INVALID_VALUE for a NaN or an infinity, else the quartic with powers
first and the sum from left to right, each step one operation of NUM (RoundingIsNearestEven and PowerIsWithinOneUlp say
what those are). With the encoding. -/
def Obligations.HighLuxCorrection : Prop :=
  (∀ x : Arg, decode (.command (commandWord 0x42#8 x)) = .ok (.hlc x)) ∧
  ∀ (s : State) (x : Arg), s.seq = .idle →
    ((x.extractLsb' 52 11).toNat = 2047 → exec (.hlc x) s = .next (s.answered .invalidValue 0#64)) ∧
    ((x.extractLsb' 52 11).toNat ≠ 2047 → exec (.hlc x) s = .next (s.answered .ok (numBits x
      (fadd (fadd (fsub (fmul (litNum 60135 (10 ^ 17)) (fpow s.cfg (numOfBits x) 4))
        (fmul (litNum 93924 (10 ^ 13)) (fpow s.cfg (numOfBits x) 3)))
        (fmul (litNum 81488 (10 ^ 9)) (fpow s.cfg (numOfBits x) 2)))
        (fmul (litNum 10023 (10 ^ 4)) (numOfBits x))))))

/-- 42_illuminance_ops section 2 (R174): the product, corrected by the quartic exactly when it exceeds 100. Only parameters
far from the defaults make a product that is no finite number: an infinite one above 100 is HLC's INVALID_VALUE (log 17),
and a NaN (a count of 0 at an infinite resolution), which exceeds nothing, is answered with free bits (log 6). With the
encoding. -/
def Obligations.RawToLux : Prop :=
  (∀ w : Word, decode (.command (commandWord 0x43#8 (w.setWidth 64))) = .ok (.raw2lux w)) ∧
  ∀ (s : State) (w : Word) (x : Machine.Num), s.seq = .idle → fmul (numOfNat w.toNat) (luxResolution s.cfg s.dev) = x →
    (fgt x (litNum 100 1) = false → exec (.raw2lux w) s = .next (s.answered .ok (numBits (w.setWidth 64) x))) ∧
    (fgt x (litNum 100 1) = true → numFinite x = true →
      exec (.raw2lux w) s = .next (s.answered .ok (numBits (w.setWidth 64) (quartic s.cfg x)))) ∧
    (fgt x (litNum 100 1) = true → numFinite x = false →
      exec (.raw2lux w) s = .next (s.answered .invalidValue 0#64))

/-- 42_illuminance_ops sections 2 and 3 ("Errors: none"; R179 (b), derived by the spec): with the default resolution, which
is the family's (log 4), and the default power (log 5), RAW2LUX answers a finite number for every count and setting. -/
def Obligations.RawToLuxNeverFails : Prop :=
  ∀ (s : State) (w : Word), s.seq = .idle → s.cfg.maxResolutionLux = defaultParams.maxResolutionLux →
    s.cfg.powDev = [] →
    ∃ r, exec (.raw2lux w) s = .next (s.answered .ok r) ∧ numFinite (numOfBits r) = true

/-- 42_illuminance_ops section 2 (R175, R176, R177, decision D17): LUX is RAW2LUX of the stored count at the settings in
force; IS.OVF and IS.UNF test it; with nothing sampled each is NO_DATA. With the encodings. -/
def Obligations.StoredCountOperations : Prop :=
  decode (.command 0x440000000000000000#72) = .ok .lux ∧
  decode (.command 0x450000000000000000#72) = .ok .isOvf ∧
  decode (.command 0x460000000000000000#72) = .ok .isUnf ∧
  ∀ s : State, s.seq = .idle →
    (s.dev.als = none → exec .lux s = .next (s.answered .noData 0#64) ∧
      exec .isOvf s = .next (s.answered .noData 0#64) ∧ exec .isUnf s = .next (s.answered .noData 0#64)) ∧
    (∀ w, s.dev.als = some w →
      (∀ x : Machine.Num, fmul (numOfNat w.toNat) (luxResolution s.cfg s.dev) = x →
        (fgt x (litNum 100 1) = false → exec .lux s = .next (s.answered .ok (numBits (w.setWidth 64) x))) ∧
        (fgt x (litNum 100 1) = true → numFinite x = true →
          exec .lux s = .next (s.answered .ok (numBits (w.setWidth 64) (quartic s.cfg x))))) ∧
      exec .lux s = exec (.raw2lux w) s ∧
      exec .isOvf s = .next (s.answered .ok (if w = 0xFFFF#16 then 1#64 else 0#64)) ∧
      exec .isUnf s = .next (s.answered .ok (if w = 0#16 then 1#64 else 0#64)))

/-- 42_illuminance_ops section 2 (R178, decision D22): INFINITE while shut down, else the integration time, with the
overhead of the mode while power saving is enabled. That the answer is the sum itself rests on admissible parameters
(log 16). With the encoding. -/
def Obligations.RefreshTime : Prop :=
  decode (.command 0x470000000000000000#72) = .ok .refresh ∧
  ∀ s : State, s.seq = .idle → paramsOk s.cfg = true →
    (s.dev.sd = true → exec .refresh s = .next (s.answered .infinite 0#64)) ∧
    (s.dev.sd = false → ∃ r : Arg, exec .refresh s = .next (s.answered .ok r) ∧
      r.toNat = itMillis s.dev.it + if s.dev.psmEn then psOverheadMs s.cfg s.dev.psm else 0)

/-- 00_scope section 5 (R8, decision D6). Every rounding of the model: the result has 53 significant bits, no such number is
nearer to the exact value, and of two equally near the one with the even significand is taken. And every operation of NUM
on finite numbers is the rounding of its exact result: product, sum, difference, and the quotient of a decimal literal;
the comparison and the conversion of an integer are exact. The signs of a zero are log 18. -/
def Obligations.RoundingIsNearestEven : Prop :=
  (∀ m k : Nat, Representable (roundMag m k) ∧ ∀ c : Nat, Representable c →
    |(roundMag m k * 2 ^ k : Int) - m| ≤ |(c * 2 ^ k : Int) - m| ∧
    (|(roundMag m k * 2 ^ k : Int) - m| = |(c * 2 ^ k : Int) - m| → c ≠ roundMag m k →
      2 * |(roundMag m k : Int) - c| ∣ (roundMag m k : Int))) ∧
  (∀ (a b : Machine.Num) (p q : ℚ), numValue a = some p → numValue b = some q →
    RoundsTo (p * q) (fmul a b) ∧ RoundsTo (p + q) (fadd a b) ∧ RoundsTo (p - q) (fsub a b) ∧
    (fgt a b = true ↔ q < p)) ∧
  (∀ p q : Nat, 0 < q → RoundsTo ((p : ℚ) / q) (litNum p q)) ∧
  (∀ n : Nat, n < 2 ^ 53 → Representable (n * 2 ^ 1074) ∧ numValue (numOfNat n) = some (n : ℚ)) ∧
  (∀ (x y : Bool) (n : Nat), fmul (.fin x 0) (.fin y n) = .fin (x != y) 0 ∧
    fmul (.fin x n) (.fin y 0) = .fin (x != y) 0 ∧ fadd (.fin x 0) (.fin y 0) = .fin (x && y) 0 ∧
    (n ≠ 0 → fsub (.fin x n) (.fin x n) = .fin false 0))

/-- 00_scope section 5 (R8, decision D6; log 5), for every parameter and every finite operand: `fpow` answers a binary64, with
the sign of the exact power, within one unit in the last place of it, or an infinity; what the parameter lists is the
answer wherever R8 allows it, and everything R8 allows can be listed; where nothing allowed is listed the answer is the
rounding to nearest even, which past the range is an infinity. -/
def Obligations.PowerIsWithinOneUlp : Prop :=
  ∀ (p : Params) (x : Machine.Num) (q : ℚ) (n : Nat), numValue x = some q → n ∈ [2, 3, 4] →
    (∀ neg mag, fpow p x n = .fin neg mag → Representable mag ∧ mag < overflowMag ∧
      ∃ v, numValue (fpow p x n) = some v ∧ WithinUlp v (q ^ n)) ∧
    (∀ neg, fpow p x n = .inf neg → (neg = true ↔ q ^ n < 0) ∧
      (RoundsTo (q ^ n) (.inf neg) ∨ WithinUlp (if neg then -2 ^ 1024 else 2 ^ 1024) (q ^ n))) ∧
    fpow p x n ≠ .nan ∧
    (∀ y v, powListed p x n = some y → cappedValue y = some v → WithinUlp v (q ^ n) → fpow p x n = y) ∧
    ((∀ y v, powListed p x n = some y → cappedValue y = some v → ¬WithinUlp v (q ^ n)) →
      RoundsTo (q ^ n) (fpow p x n)) ∧
    (∀ (a : Arg) (v : ℚ), cappedValue (numOfBits a) = some v → WithinUlp v (q ^ n) →
      fpow { p with powDev := ⟨numBits 0#64 x, n, a⟩ :: p.powDev } x n = numOfBits a)

/-- 30_encoding sections 5 and 6 (forms F and f, decision D5): the 64 bits of a number and the number are one, NaN apart. -/
def Obligations.NumberBitsRoundTrip : Prop :=
  (∀ (o : Arg) (neg : Bool) (mag : Nat), Representable mag → mag < overflowMag →
    numOfBits (numBits o (.fin neg mag)) = .fin neg mag) ∧
  (∀ (o : Arg) (neg : Bool), numOfBits (numBits o (.inf neg)) = .inf neg) ∧
  (∀ o : Arg, numOfBits (numBits o .nan) = .nan) ∧
  (∀ o w : Arg, numOfBits w ≠ .nan → numBits o (numOfBits w) = w)

/-! ### Auto-range operations -/

/-- 43_autorange_ops section 1 (R190, decision D17): the verdict on the stored count; both comparisons strict.
With the encoding. -/
def Obligations.ClassifyVerdict : Prop :=
  decode (.command 0x500000000000000000#72) = .ok .classify ∧
  ∀ s : State, s.seq = .idle →
    (s.dev.als = none → exec .classify s = .next (s.answered .noData 0#64)) ∧
    ∀ w, s.dev.als = some w →
      (LowerEnd s.dev.gain s.dev.it w → exec .classify s = .next (s.answered .ok 1#64)) ∧
      (UpperEnd s.dev.gain s.dev.it w → exec .classify s = .next (s.answered .ok 2#64)) ∧
      (¬LowerEnd s.dev.gain s.dev.it w → ¬UpperEnd s.dev.gain s.dev.it w →
        exec .classify s = .next (s.answered .ok 0#64))

/-- 43_autorange_ops section 2 (R191 to R194; that a step is to the neighbour on the ladder is decision D19): nothing at the
end of the ladder, else the neighbour stored and one CONF write. With the encodings. The failed write is decision D13,
the sensor's known content while the write is unanswered the model's choice (log 20). -/
def Obligations.StepPrimitives : Prop :=
  decode (.command 0x510000000000000000#72) = .ok .gainUp ∧
  decode (.command 0x520000000000000000#72) = .ok .gainDn ∧
  decode (.command 0x530000000000000000#72) = .ok .itUp ∧
  decode (.command 0x540000000000000000#72) = .ok .itDn ∧
  ∀ s : State, s.seq = .idle →
    (s.dev.gain = .two → exec .gainUp s = .next (s.answered .ok 0#64)) ∧
    (∀ g, (s.dev.gain, g) ∈ [(Gain.eighth, Gain.quarter), (.quarter, .one), (.one, .two)] →
      SetterEffect (exec .gainUp s) s False { s.dev with gain := g } .conf
        (confLayout s.cfg { s.dev with gain := g })) ∧
    (s.dev.gain = .eighth → exec .gainDn s = .next (s.answered .ok 0#64)) ∧
    (∀ g, (s.dev.gain, g) ∈ [(Gain.quarter, Gain.eighth), (.one, .quarter), (.two, .one)] →
      SetterEffect (exec .gainDn s) s False { s.dev with gain := g } .conf
        (confLayout s.cfg { s.dev with gain := g })) ∧
    (s.dev.it = .ms800 → exec .itUp s = .next (s.answered .ok 0#64)) ∧
    (∀ t, (s.dev.it, t) ∈ [(IntegrationTime.ms25, IntegrationTime.ms50), (.ms50, .ms100), (.ms100, .ms200),
        (.ms200, .ms400), (.ms400, .ms800)] →
      SetterEffect (exec .itUp s) s False { s.dev with it := t } .conf
        (confLayout s.cfg { s.dev with it := t })) ∧
    (s.dev.it = .ms25 → exec .itDn s = .next (s.answered .ok 0#64)) ∧
    (∀ t, (s.dev.it, t) ∈ [(IntegrationTime.ms50, IntegrationTime.ms25), (.ms100, .ms50), (.ms200, .ms100),
        (.ms400, .ms200), (.ms800, .ms400)] →
      SetterEffect (exec .itDn s) s False { s.dev with it := t } .conf
        (confLayout s.cfg { s.dev with it := t }))

/-- 43_autorange_ops section 3 (R196, decisions D20, D21): the first sample. Neither end: the count is stored, one read is
the whole bus traffic and the response is OK. A failed read stores nothing. -/
def Obligations.CalibrateFirstSample : Prop :=
  ∀ s : State, s.seq = .idle →
    (∀ w rest, s.answers = .ok w :: rest → ¬LowerEnd s.dev.gain s.dev.it w → ¬UpperEnd s.dev.gain s.dev.it w →
      exec .calibrate s = .next { s with
        dev := { s.dev with als := some w }
        answers := rest
        trace := s.trace ++ [.read .als (.ok w)]
        responses := s.responses ++ [⟨.ok, 0#64⟩] }) ∧
    (∀ e rest, s.answers = .err e :: rest → exec .calibrate s = .next { s with
      answers := rest
      trace := s.trace ++ [.read .als (.err e)]
      responses := s.responses ++ [⟨.transportError, e.setWidth 64⟩] }) ∧
    (s.answers = [] → exec .calibrate s = .next { s with seq := .waiting (.read .als) .calibrateSampling })

/-- 43_autorange_ops section 3 (R196, decisions D20, D21): one adjustment, in the priority order of `upperStep` and
`lowerStep`. When its CONF write is answered `ok` CALIBRATE goes on as if given anew at the new setting; when it is
answered `err` it ends with the new setting stored (decision D13); unanswered, it is in flight, the sensor's
known content as it was (the model's choice, log 20). -/
def Obligations.CalibrateAdjusts : Prop :=
  ∀ (s : State) (w : Word) (setting : Gain × IntegrationTime), s.seq = .idle →
    (LowerEnd s.dev.gain s.dev.it w ∧ lowerStep s.dev.gain s.dev.it = some setting) ∨
      (UpperEnd s.dev.gain s.dev.it w ∧ upperStep s.dev.gain s.dev.it = some setting) →
    let d := { s.dev with als := some w, gain := setting.1, it := setting.2 }
    (∀ v rest, s.answers = .ok w :: .ok v :: rest →
      exec .calibrate s = exec .calibrate (s.afterAdjustment w setting rest)) ∧
    (∀ e rest, s.answers = .ok w :: .err e :: rest → exec .calibrate s = .next { s with
      dev := d
      answers := rest
      trace := s.trace ++ [.read .als (.ok w), .write .conf (confLayout s.cfg d) (some e)]
      sensor := sensorForget s.sensor 0
      responses := s.responses ++ [⟨.transportError, e.setWidth 64⟩] }) ∧
    (s.answers = [.ok w] → exec .calibrate s = .next { s with
      dev := d
      answers := []
      trace := s.trace ++ [.read .als (.ok w)]
      seq := .waiting (.write .conf (confLayout s.cfg d)) .calibrateAdjusting })

/-- 43_autorange_ops section 3 (R198, derived by the spec): whenever CALIBRATE answers OK, however many adjustments it made,
the stored count is SWEET at the final setting. -/
def Obligations.CalibrateEndsSweet : Prop :=
  ∀ s t : State, s.seq = .idle → exec .calibrate s = .next t → t.responses = s.responses ++ [⟨.ok, 0#64⟩] →
    ∃ w, t.dev.als = some w ∧ ¬LowerEnd t.dev.gain t.dev.it w ∧ ¬UpperEnd t.dev.gain t.dev.it w

/-- 43_autorange_ops section 3 (R197, derived by the spec): when every transaction is answered `ok` and no count lies
beyond one of the two limits, so that the direction never changes, CALIBRATE ends with OK after at most nine reads and
eight writes. -/
def Obligations.CalibrateEndsInOneDirection : Prop :=
  ∀ s : State, s.seq = .idle → 17 ≤ s.answers.length → (∀ a ∈ s.answers, ∃ w, a = .ok w) →
    ((∀ k w, s.answers[2 * k]? = some (.ok w) → 100 ≤ w.toNat) ∨
      (∀ k w, s.answers[2 * k]? = some (.ok w) → w.toNat ≤ 10000)) →
    ∃ t, exec .calibrate s = .next t ∧ t.seq = .idle ∧ t.responses = s.responses ++ [⟨.ok, 0#64⟩] ∧
      t.trace.length ≤ s.trace.length + 17

/-- 70_reset_and_hazards section 3 (R266) and 43_autorange_ops section 3 (R197), derived by the spec: on counts that
alternate between the two ends CALIBRATE is still in flight after any number of transactions, at the setting it started
from. -/
def Obligations.CalibrateNeedNotEnd : Prop :=
  ∀ (s : State) (n : Nat), s.seq = .idle → s.dev.gain = .one → s.dev.it = .ms100 →
    s.answers = alternatingAnswers n →
    ∃ t, exec .calibrate s = .next t ∧ t.seq = .waiting (.read .als) .calibrateSampling ∧ t.dev.gain = .one ∧
      t.dev.it = .ms100 ∧ t.responses = s.responses ∧ t.trace.length = s.trace.length + 4 * n

/-! ### The event operation and the bus rows -/

/-- 44_event_ops (R210, decision D16): NO_EVENT without a transaction while interrupts are disabled in the shadow; else
one read of INT, whose two bits 15:14 are stored as the event and answered. -/
def Obligations.PollEvent : Prop :=
  ∀ s : State, s.seq = .idle →
    (s.dev.intEn = false → exec .pollEvent s = .next (s.answered .noEvent 0#64)) ∧
    (s.dev.intEn = true →
      (∀ w rest e, s.answers = .ok w :: rest →
        [ThresholdEvent.evNone, .evHigh, .evLow, .evBoth][(w >>> 14).toNat]? = some e →
        exec .pollEvent s = .next { s with
          dev := { s.dev with event := some e }
          answers := rest
          trace := s.trace ++ [.read .int (.ok w)]
          responses := s.responses ++ [⟨.ok, (w >>> 14).setWidth 64⟩] }) ∧
      (∀ t rest, s.answers = .err t :: rest → exec .pollEvent s = .next { s with
        answers := rest
        trace := s.trace ++ [.read .int (.err t)]
        responses := s.responses ++ [⟨.transportError, t.setWidth 64⟩] }) ∧
      (s.answers = [] → exec .pollEvent s = .next { s with seq := .waiting (.read .int) .pollEvent }))

/-- 30_encoding section 4 and 20_memory section 1 (decision D4; log 8): each bus row, outstanding, is the transaction
answered `ok`, and the operation that issued it, whichever it is, goes on from there: it ends, or makes its next
transaction. The row's word is what the sensor then holds, or what the block stores. A second read of SAMPLE with no
stored count, which no run reaches, takes 0 for it (log 11). SET.POWER's PSM write, failed or unanswered, is decision D13 and
log 20. With the encodings of the rows. -/
def Obligations.BusRowsComplete : Prop :=
  ∀ s : State,
    (∀ g t p i sd, decode (.bus (busRow 0x00#8 (confOfCodes g t p i sd))) = .ok (.busConf g t p i sd)) ∧
    (∀ g t p i sd, s.seq = .waiting (.write .conf (confOfCodes g t p i sd)) .respond →
      exec (.busConf g t p i sd) s = .next { s with
        seq := .idle
        trace := s.trace ++ [.write .conf (confOfCodes g t p i sd) none]
        sensor := sensorWrite s.sensor 0 (confOfCodes g t p i sd)
        responses := s.responses ++ [⟨.ok, 0#64⟩] }) ∧
    (∀ g t p i sd enable mode, s.seq = .waiting (.write .conf (confOfCodes g t p i sd)) (.powerSaving enable mode) →
      SetterEffect (exec (.busConf g t p i sd) s)
        { s with
          seq := .idle
          trace := s.trace ++ [.write .conf (confOfCodes g t p i sd) none]
          sensor := sensorWrite s.sensor 0 (confOfCodes g t p i sd) }
        (s.dev.psmEn = enable ∧ s.dev.psm = mode) { s.dev with psmEn := enable, psm := mode } .psm
        (psmLayout s.cfg { s.dev with psmEn := enable, psm := mode })) ∧
    (∀ g t p i sd, s.seq = .waiting (.write .conf (confOfCodes g t p i sd)) .calibrateAdjusting →
      exec (.busConf g t p i sd) s = exec .calibrate { s with
        seq := .idle
        trace := s.trace ++ [.write .conf (confOfCodes g t p i sd) none]
        sensor := sensorWrite s.sensor 0 (confOfCodes g t p i sd) }) ∧
    (∀ h, decode (.bus (busRow 0x01#8 h)) = .ok (.busThrHi h)) ∧
    (∀ h, s.seq = .waiting (.write .thrHi h) .respond → exec (.busThrHi h) s = .next { s with
      seq := .idle
      trace := s.trace ++ [.write .thrHi h none]
      sensor := sensorWrite s.sensor 1 h
      responses := s.responses ++ [⟨.ok, 0#64⟩] }) ∧
    (∀ l, decode (.bus (busRow 0x02#8 l)) = .ok (.busThrLo l)) ∧
    (∀ l, s.seq = .waiting (.write .thrLo l) .respond → exec (.busThrLo l) s = .next { s with
      seq := .idle
      trace := s.trace ++ [.write .thrLo l none]
      sensor := sensorWrite s.sensor 2 l
      responses := s.responses ++ [⟨.ok, 0#64⟩] }) ∧
    (∀ m e, decode (.bus (busRow 0x03#8 (psmOfCodes m e))) = .ok (.busPsm m e)) ∧
    (∀ m e, s.seq = .waiting (.write .psm (psmOfCodes m e)) .respond → exec (.busPsm m e) s = .next { s with
      seq := .idle
      trace := s.trace ++ [.write .psm (psmOfCodes m e) none]
      sensor := sensorWrite s.sensor 3 (psmOfCodes m e)
      responses := s.responses ++ [⟨.ok, 0#64⟩] }) ∧
    (∀ a, decode (.bus (busRow 0x04#8 a)) = .ok (.busAls a)) ∧
    (∀ a, s.seq = .waiting (.read .als) (.sampleAls false) → exec (.busAls a) s = .next { s with
      dev := { s.dev with als := some a }
      seq := .idle
      trace := s.trace ++ [.read .als (.ok a)]
      responses := s.responses ++ [⟨.ok, a.setWidth 64⟩] }) ∧
    (∀ a, s.seq = .waiting (.read .als) (.sampleAls true) →
      exec (.busAls a) s = exec (.sample true true) { s with seq := .idle, answers := .ok a :: s.answers }) ∧
    (∀ a, s.seq = .waiting (.read .als) .calibrateSampling →
      exec (.busAls a) s = exec .calibrate { s with seq := .idle, answers := .ok a :: s.answers }) ∧
    (∀ w, decode (.bus (busRow 0x05#8 w)) = .ok (.busWhite w)) ∧
    (∀ w, s.seq = .waiting (.read .white) (.sampleWhite false) → exec (.busWhite w) s = .next { s with
      dev := { s.dev with white := some w }
      seq := .idle
      trace := s.trace ++ [.read .white (.ok w)]
      responses := s.responses ++ [⟨.ok, w.setWidth 64 <<< 16⟩] }) ∧
    (∀ w, s.seq = .waiting (.read .white) (.sampleWhite true) → exec (.busWhite w) s = .next { s with
      dev := { s.dev with white := some w }
      seq := .idle
      trace := s.trace ++ [.read .white (.ok w)]
      responses := s.responses ++ [⟨.ok, (w ++ s.dev.als.getD 0#16).setWidth 64⟩] }) ∧
    (∀ v x, decode (.bus (busRow 0x06#8 (intOfFields v x))) = .ok (.busInt v x)) ∧
    (∀ v x e, s.seq = .waiting (.read .int) .pollEvent →
      [ThresholdEvent.evNone, .evHigh, .evLow, .evBoth][v.toNat]? = some e →
      exec (.busInt v x) s = .next { s with
        dev := { s.dev with event := some e }
        seq := .idle
        trace := s.trace ++ [.read .int (.ok (v ++ x))]
        responses := s.responses ++ [⟨.ok, v.setWidth 64⟩] })

/-- The model's choice (log 8), from 20_memory section 1 (R44: any other pair is never issued): a bus row that is not the
outstanding transaction is refused by name. -/
def Obligations.BusRowNotIssuedIsRefused : Prop :=
  ∀ (i : Instr) (q : Request) (k : Resume) (w : Word) (s : State), outstandingFor i = some (.waiting q k, w) →
    (∀ k', s.seq ≠ .waiting q k') → exec i s = .refused .transactionNotIssued

/-! ### The machine as a whole -/

/-- The invariant of StepKeepsInvariant holds after reset. -/
def Obligations.InvariantAtReset : Prop := State.reset.inv = true

/-- 20_memory section 1 (R43, R44) and 10_state section 4 (R28), over every instruction and every port: the sensor list stays
canonical, the outstanding transaction is one its operation issues, and a write carries the image of the shadow. -/
def Obligations.StepKeepsInvariant : Prop :=
  ∀ s t : State, s.inv = true → step s = .next t → t.inv = true

/-- From a state that meets the invariant the machine never stops: no step is a fault or a refusal. -/
def Obligations.StepNeverStops : Prop := ∀ s : State, s.inv = true → ∃ t, step s = .next t

/-- 10_state section 4 (R36) and 70_reset_and_hazards section 3 (R260, derived by the spec): while reset is not asserted,
what a sensor register is known to hold stays the shadow's image, but for one whose write is outstanding. -/
def Obligations.ShadowAgreementIsKept : Prop :=
  ∀ s t : State, s.resetIn = false → s.inv = true → s.shadowAgrees → step s = .next t → t.shadowAgrees

/-- 70_reset_and_hazards section 2 (R253, decision D18): SET.SD true, SET.SD false, SET.PSMEN true, SET.PSMEN false, each
answered `ok`, make CONF and PSM in the sensor the image of the shadow, whatever they held. -/
def Obligations.BootDutyEstablishesAgreement : Prop :=
  ∀ (s : State) (a b c d : Word), s.seq = .idle → s.resetIn = false → s.dev.sd = false → s.dev.psmEn = false →
    s.cmds = [0x240000000000000001#72, 0x240000000000000000#72, 0x260000000000000001#72, 0x260000000000000000#72] →
    s.answers = [.ok a, .ok b, .ok c, .ok d] →
    ∃ t, Sys2Proof.core.run 4 s = .next t ∧ t.dev = s.dev ∧ t.seq = .idle ∧
      t.sensorHolds .conf = some (confLayout s.cfg s.dev) ∧ t.sensorHolds .psm = some (psmLayout s.cfg s.dev)

/-- 10_state section 3 (R26) and 70_reset_and_hazards section 3 (R262), decisions D2, D3; log 1: an operation whose answers
run out stays in flight, and the answer that comes later carries it exactly where the whole list would have. -/
def Obligations.LateAnswersChangeNothing : Prop :=
  ∀ (i : Instr) (s t : State) (as rest : List Answer) (a : Answer), s.seq = .idle → s.resetIn = false →
    exec i { s with answers := as } = .next t → t.seq ≠ .idle →
    step { t with answers := a :: rest } = exec i { s with answers := as ++ a :: rest }

/-- 10_state section 1, "Written by" of R12 to R22: an operation writes no field of S but those that name it. -/
def Obligations.OnlyNamedOperationsWriteAField : Prop :=
  ∀ (i : Instr) (s t : State) (f : DeviceField), s.seq = .idle → exec i s = .next t → mayWrite i f = false →
    sameField s.dev t.dev f

/-- 20_memory section 1 (R44, derived by the spec): an operation puts no transaction on the bus but those of its own row
of the table. -/
def Obligations.OnlyItsOwnTransactions : Prop :=
  ∀ (i : Instr) (s t : State), s.seq = .idle → exec i s = .next t →
    ∃ new, t.trace = s.trace ++ new ∧ ∀ e ∈ new, mayIssue i e = true

/-- 10_state section 3 (R26, decision D3): an operation answers exactly once and leaves the block idle, or waits for the
transport with no answer left, and has not answered yet; it takes answers from the front and no command. -/
def Obligations.OneResponsePerOperation : Prop :=
  ∀ (i : Instr) (s t : State), s.seq = .idle → exec i s = .next t →
    t.cmds = s.cmds ∧ t.resetIn = s.resetIn ∧ t.cfg = s.cfg ∧ t.answers <:+ s.answers ∧
    ((t.seq = .idle ∧ ∃ r, t.responses = s.responses ++ [r]) ∨
      (t.seq ≠ .idle ∧ t.responses = s.responses ∧ t.answers = []))

/-- 00_scope section 4: no step changes a parameter. That the bus trace (20_memory section 3, R54) and the responses are lists
kept in State, which only grow at their ends, also across a reset, is the model's choice (log 3; log 10 for the reset):
the block keeps no history (10_state section 7, R38). -/
def Obligations.StepKeepsParametersAndHistory : Prop :=
  ∀ s t : State, step s = .next t → t.cfg = s.cfg ∧ s.trace <+: t.trace ∧ s.responses <+: t.responses

end
end

