-- ==== Sys2Proof/Laws/Decode.lean ====
section
/-! SUPPORT. The words of the ports and their fields: what a command word or a bus row is made of, each argument form
on the argument the encoder gives it, and the register layouts as the images the meanings compute. -/

namespace Sys2Proof.Laws
open Sys2Proof.Machine

/-! ### A word of two fields -/

/-- The upper field of an append. -/
theorem extract_append_high {m n : Nat} (a : BitVec m) (b : BitVec n) : (a ++ b).extractLsb' n m = a := by
  apply BitVec.eq_of_toNat_eq
  rw [BitVec.extractLsb'_toNat, BitVec.toNat_append, Nat.shiftRight_eq_div_pow,
    ← Nat.shiftLeft_add_eq_or_of_lt b.isLt, Nat.shiftLeft_eq, Nat.mul_comm, Nat.mul_add_div (Nat.two_pow_pos n),
    Nat.div_eq_of_lt b.isLt, Nat.add_zero, Nat.mod_eq_of_lt a.isLt]

/-- The lower field of an append. -/
theorem extract_append_low {m n : Nat} (a : BitVec m) (b : BitVec n) : (a ++ b).extractLsb' 0 n = b := by
  apply BitVec.eq_of_toNat_eq
  rw [BitVec.extractLsb'_toNat, BitVec.toNat_append, Nat.shiftRight_zero,
    ← Nat.shiftLeft_add_eq_or_of_lt b.isLt, Nat.shiftLeft_eq, Nat.mul_comm, Nat.mul_add_mod,
    Nat.mod_eq_of_lt b.isLt]

/-- A word is its two fields. -/
theorem append_extract {m n : Nat} (w : BitVec (m + n)) : w.extractLsb' n m ++ w.extractLsb' 0 n = w := by
  apply BitVec.eq_of_toNat_eq
  have hw : w.toNat / 2 ^ n < 2 ^ m := by
    rw [Nat.div_lt_iff_lt_mul (Nat.two_pow_pos n), ← Nat.pow_add]
    exact w.isLt
  rw [BitVec.toNat_append, ← Nat.shiftLeft_add_eq_or_of_lt (BitVec.isLt _), Nat.shiftLeft_eq,
    BitVec.extractLsb'_toNat, BitVec.extractLsb'_toNat, Nat.shiftRight_eq_div_pow, Nat.shiftRight_zero,
    Nat.mod_eq_of_lt hw, Nat.mul_comm, Nat.div_add_mod]

@[simp] theorem commandOp_commandWord (op : BitVec 8) (a : Arg) : commandOp (commandWord op a) = op :=
  extract_append_high op a

@[simp] theorem commandArg_commandWord (op : BitVec 8) (a : Arg) : commandArg (commandWord op a) = a :=
  extract_append_low op a

@[simp] theorem commandWord_fields (w : Command) : commandWord (commandOp w) (commandArg w) = w :=
  append_extract (m := 8) (n := 64) w

@[simp] theorem busRowCode_busRow (c : Code) (w : Word) : busRowCode (busRow c w) = c := extract_append_high c w

@[simp] theorem busRowWord_busRow (c : Code) (w : Word) : busRowWord (busRow c w) = w := extract_append_low c w

@[simp] theorem busRow_fields (w : BusRow) : busRow (busRowCode w) (busRowWord w) = w :=
  append_extract (m := 8) (n := 16) w

/-! ### The argument forms on the encoder's arguments -/

theorem formE_argNat {op : BitVec 8} {k : Nat} (c : Nat → Instr) (h : k < 16) : formE op (argNat k) c = .ok (c k) := by
  have hk : (argNat k).toNat = k := by simp [argNat]; omega
  simp [formE, hk, h]

theorem formP_argNat {op : BitVec 8} {k : Nat} (c : Nat → Instr) (h : k < 8) : formP op (argNat k) c = .ok (c k) := by
  have hk : (argNat k).toNat = k := by simp [argNat]; omega
  simp [formP, hk, h]

theorem formB_argB {op : BitVec 8} (b : Bool) (c : Bool → Instr) : formB op (argB b) c = .ok (c b) := by
  cases b <;> simp [formB, argB]

theorem formS_argS {op : BitVec 8} (a b : Bool) (c : Bool → Bool → Instr) : formS op (argS a b) c = .ok (c a b) := by
  cases a <;> cases b <;> simp [formS, argS]

theorem formW_argW {op : BitVec 8} (w : Word) (c : Word → Instr) : formW op (argW w) c = .ok (c w) := by
  have hw := w.isLt
  have h : (argW w).toNat < 65536 := by simp [argW]; omega
  have h2 : (argW w).setWidth 16 = w := by
    apply BitVec.eq_of_toNat_eq
    simp [argW]
  simp [formW, h, h2]

theorem formI_argI (n : Int) (c : Int → Instr) (h : fitsInt n = true) : formI (argI n) c = .ok (c n) := by
  simp only [fitsInt, Bool.and_eq_true, decide_eq_true_eq] at h
  have hn : (argI n).toInt = n := by
    rw [argI, BitVec.toInt_ofInt]
    exact Int.bmod_eq_of_le (by omega) (by omega)
  simp [formI, hn]

/-! ### Layouts and images -/

/-- The CONF image is the layout drawn in 30_encoding R60. -/
theorem confImage_eq_layout (p : Params) (d : DeviceState) : confImage p d = confLayout p d := by
  simp only [confImage, confLayout]
  generalize gainCode p d.gain = g
  generalize itCode p d.it = t
  generalize persCode p d.pers = c
  generalize d.intEn = i
  generalize d.sd = sd
  revert g t c i sd
  decide +kernel

/-- The PSM image is the layout drawn in 30_encoding R60. -/
theorem psmImage_eq_layout (p : Params) (d : DeviceState) : psmImage p d = psmLayout p d := by
  simp only [psmImage, psmLayout]
  generalize psmCode p d.psm = m
  generalize d.psmEn = e
  revert m e
  decide

/-- A CONF word of five codes decodes to them. -/
theorem decodeWord_confOfCodes (g : BitVec 2) (t : BitVec 4) (p : BitVec 2) (i sd : BitVec 1) :
    decodeWord 0x00#8 (confOfCodes g t p i sd) = .ok (.busConf g t p i sd) := by
  revert g t p i sd
  decide +kernel

/-- A PSM word of two codes decodes to them. -/
theorem decodeWord_psmOfCodes (m : BitVec 2) (e : BitVec 1) :
    decodeWord 0x03#8 (psmOfCodes m e) = .ok (.busPsm m e) := by
  revert m e
  decide +kernel

/-- An INT word decodes to its event field and its ignored bits. -/
theorem decodeWord_intOfFields (v : BitVec 2) (ignored : BitVec 14) :
    decodeWord 0x06#8 (intOfFields v ignored) = .ok (.busInt v ignored) := by
  have hv : (intOfFields v ignored).extractLsb' 14 2 = v := extract_append_high v ignored
  have hx : (intOfFields v ignored).extractLsb' 0 14 = ignored := extract_append_low v ignored
  simp [decodeWord, hv, hx]

end Sys2Proof.Laws
end

