-- ==== Sys2Proof/Laws/State.lean ====
section
/-! SUPPORT. One lemma per field per update of State: no later proof unfolds a record update. -/

namespace Sys2Proof.Laws
open Sys2Proof.Machine

variable (s : State)

@[simp] theorem respond_dev (r : Response) : (s.respond r).dev = s.dev := rfl
@[simp] theorem respond_seq (r : Response) : (s.respond r).seq = .idle := rfl
@[simp] theorem respond_sensor (r : Response) : (s.respond r).sensor = s.sensor := rfl
@[simp] theorem respond_cmds (r : Response) : (s.respond r).cmds = s.cmds := rfl
@[simp] theorem respond_answers (r : Response) : (s.respond r).answers = s.answers := rfl
@[simp] theorem respond_resetIn (r : Response) : (s.respond r).resetIn = s.resetIn := rfl
@[simp] theorem respond_responses (r : Response) : (s.respond r).responses = s.responses ++ [r] := rfl
@[simp] theorem respond_trace (r : Response) : (s.respond r).trace = s.trace := rfl
@[simp] theorem respond_cfg (r : Response) : (s.respond r).cfg = s.cfg := rfl

@[simp] theorem finish_dev (a : Arg) : (s.finish a).dev = s.dev := rfl
@[simp] theorem finish_seq (a : Arg) : (s.finish a).seq = .idle := rfl
@[simp] theorem finish_sensor (a : Arg) : (s.finish a).sensor = s.sensor := rfl
@[simp] theorem finish_cmds (a : Arg) : (s.finish a).cmds = s.cmds := rfl
@[simp] theorem finish_answers (a : Arg) : (s.finish a).answers = s.answers := rfl
@[simp] theorem finish_resetIn (a : Arg) : (s.finish a).resetIn = s.resetIn := rfl
@[simp] theorem finish_responses (a : Arg) : (s.finish a).responses = s.responses ++ [⟨.ok, a⟩] := rfl
@[simp] theorem finish_trace (a : Arg) : (s.finish a).trace = s.trace := rfl
@[simp] theorem finish_cfg (a : Arg) : (s.finish a).cfg = s.cfg := rfl

@[simp] theorem raise_dev (e : OpError) : (s.raise e).dev = s.dev := rfl
@[simp] theorem raise_seq (e : OpError) : (s.raise e).seq = .idle := rfl
@[simp] theorem raise_sensor (e : OpError) : (s.raise e).sensor = s.sensor := rfl
@[simp] theorem raise_cmds (e : OpError) : (s.raise e).cmds = s.cmds := rfl
@[simp] theorem raise_answers (e : OpError) : (s.raise e).answers = s.answers := rfl
@[simp] theorem raise_resetIn (e : OpError) : (s.raise e).resetIn = s.resetIn := rfl
@[simp] theorem raise_responses (e : OpError) : (s.raise e).responses = s.responses ++ [errorResponse e] := rfl
@[simp] theorem raise_trace (e : OpError) : (s.raise e).trace = s.trace := rfl
@[simp] theorem raise_cfg (e : OpError) : (s.raise e).cfg = s.cfg := rfl

@[simp] theorem issue_dev (q : Request) (k : Resume) : (s.issue q k).dev = s.dev := rfl
@[simp] theorem issue_seq (q : Request) (k : Resume) : (s.issue q k).seq = .waiting q k := rfl
@[simp] theorem issue_sensor (q : Request) (k : Resume) : (s.issue q k).sensor = s.sensor := rfl
@[simp] theorem issue_cmds (q : Request) (k : Resume) : (s.issue q k).cmds = s.cmds := rfl
@[simp] theorem issue_answers (q : Request) (k : Resume) : (s.issue q k).answers = s.answers := rfl
@[simp] theorem issue_resetIn (q : Request) (k : Resume) : (s.issue q k).resetIn = s.resetIn := rfl
@[simp] theorem issue_responses (q : Request) (k : Resume) : (s.issue q k).responses = s.responses := rfl
@[simp] theorem issue_trace (q : Request) (k : Resume) : (s.issue q k).trace = s.trace := rfl
@[simp] theorem issue_cfg (q : Request) (k : Resume) : (s.issue q k).cfg = s.cfg := rfl

@[simp] theorem record_dev (q : Request) (a : Answer) : (s.record q a).dev = s.dev := rfl
@[simp] theorem record_seq (q : Request) (a : Answer) : (s.record q a).seq = s.seq := rfl
@[simp] theorem record_sensor (q : Request) (a : Answer) : (s.record q a).sensor = sensorAfter q a s.sensor := rfl
@[simp] theorem record_cmds (q : Request) (a : Answer) : (s.record q a).cmds = s.cmds := rfl
@[simp] theorem record_answers (q : Request) (a : Answer) : (s.record q a).answers = s.answers := rfl
@[simp] theorem record_resetIn (q : Request) (a : Answer) : (s.record q a).resetIn = s.resetIn := rfl
@[simp] theorem record_responses (q : Request) (a : Answer) : (s.record q a).responses = s.responses := rfl
@[simp] theorem record_trace (q : Request) (a : Answer) : (s.record q a).trace = s.trace ++ [busEvent q a] := rfl
@[simp] theorem record_cfg (q : Request) (a : Answer) : (s.record q a).cfg = s.cfg := rfl

@[simp] theorem hardReset_dev : s.hardReset.dev = resetDevice := rfl
@[simp] theorem hardReset_seq : s.hardReset.seq = .idle := rfl
@[simp] theorem hardReset_sensor : s.hardReset.sensor = sensorAfterAbandon s.seq s.sensor := rfl
@[simp] theorem hardReset_cmds : s.hardReset.cmds = s.cmds := rfl
@[simp] theorem hardReset_answers : s.hardReset.answers = s.answers := rfl
@[simp] theorem hardReset_resetIn : s.hardReset.resetIn = false := rfl
@[simp] theorem hardReset_responses : s.hardReset.responses = s.responses := rfl
@[simp] theorem hardReset_trace : s.hardReset.trace = s.trace := rfl
@[simp] theorem hardReset_cfg : s.hardReset.cfg = s.cfg := rfl

@[simp] theorem answered_dev (c : Status) (a : Arg) : (s.answered c a).dev = s.dev := rfl
@[simp] theorem answered_seq (c : Status) (a : Arg) : (s.answered c a).seq = s.seq := rfl
@[simp] theorem answered_sensor (c : Status) (a : Arg) : (s.answered c a).sensor = s.sensor := rfl
@[simp] theorem answered_cmds (c : Status) (a : Arg) : (s.answered c a).cmds = s.cmds := rfl
@[simp] theorem answered_answers (c : Status) (a : Arg) : (s.answered c a).answers = s.answers := rfl
@[simp] theorem answered_resetIn (c : Status) (a : Arg) : (s.answered c a).resetIn = s.resetIn := rfl
@[simp] theorem answered_responses (c : Status) (a : Arg) : (s.answered c a).responses = s.responses ++ [⟨c, a⟩] := rfl
@[simp] theorem answered_trace (c : Status) (a : Arg) : (s.answered c a).trace = s.trace := rfl
@[simp] theorem answered_cfg (c : Status) (a : Arg) : (s.answered c a).cfg = s.cfg := rfl

/-- An answer to an idle block's command changes its responses and nothing else. -/
theorem respond_of_idle (r : Response) (h : s.seq = .idle) :
    s.respond r = { s with responses := s.responses ++ [r] } := by
  cases s; simp_all [State.respond]

/-- Giving OK to an idle block's command, as `answered`. -/
theorem finish_of_idle (a : Arg) (h : s.seq = .idle) : s.finish a = s.answered .ok a :=
  respond_of_idle s _ h

end Sys2Proof.Laws
end

