-- ==== Sys2Proof/Laws/Sensor.lean ====
section
/-! SUPPORT. The laws of the sensor's known content: read after write and after forgetting, and that every operation
keeps the canonical form `Memory.wf`. -/

namespace Sys2Proof.Laws
open Sys2Proof.Machine

/-- A write is read back. -/
theorem sensorRead_write_same (cells : List SensorCell) (code : Nat) (w : Word) :
    sensorRead (sensorWrite cells code w) code = some w := by
  induction cells with
  | nil => simp [sensorWrite, sensorRead]
  | cons cell rest ih =>
    obtain ⟨c, v⟩ := cell
    simp only [sensorWrite]
    split
    · simp [sensorRead]
    · split
      · simp [sensorRead]
      · rename_i _ hne
        simp [sensorRead, Ne.symm hne, ih]

/-- A write leaves every other code alone. -/
theorem sensorRead_write_other (cells : List SensorCell) (code other : Nat) (w : Word) (h : other ≠ code) :
    sensorRead (sensorWrite cells code w) other = sensorRead cells other := by
  induction cells with
  | nil => simp [sensorWrite, sensorRead, Ne.symm h]
  | cons cell rest ih =>
    obtain ⟨c, v⟩ := cell
    simp only [sensorWrite]
    split
    · simp [sensorRead, Ne.symm h]
    · split
      · subst_vars; simp [sensorRead, Ne.symm h]
      · simp [sensorRead, ih]

/-- Forgetting leaves every other code alone. -/
theorem sensorRead_forget_other (cells : List SensorCell) (code other : Nat) (h : other ≠ code) :
    sensorRead (sensorForget cells code) other = sensorRead cells other := by
  induction cells with
  | nil => rfl
  | cons cell rest ih =>
    obtain ⟨c, v⟩ := cell
    simp only [sensorForget]
    split
    · subst_vars; simp [sensorRead, Ne.symm h]
    · simp [sensorRead, ih]

/-- Every code of the list is above `low`. -/
def codesAbove (low : Nat) (cells : List SensorCell) : Prop := ∀ cell ∈ cells, low < cell.1

/-- The order of a list, seen from its head. -/
theorem codesRise_cons {c : Nat} {w : Word} {rest : List SensorCell} :
    codesRise ((c, w) :: rest) = true ↔ codesAbove c rest ∧ codesRise rest = true := by
  induction rest generalizing c w with
  | nil => simp [codesRise, codesAbove]
  | cons cell rest ih =>
    obtain ⟨c', v⟩ := cell
    simp only [codesRise, Bool.and_eq_true, decide_eq_true_eq, codesAbove, List.mem_cons, forall_eq_or_imp]
    constructor
    · rintro ⟨h, hr⟩
      exact ⟨⟨h, fun cell hc => lt_trans h ((ih.1 hr).1 cell hc)⟩, hr⟩
    · rintro ⟨⟨h, _⟩, hr⟩
      exact ⟨h, hr⟩

/-- A code above which the whole list lies is not listed. -/
theorem sensorRead_of_codesAbove {low : Nat} {cells : List SensorCell} (h : codesAbove low cells) :
    sensorRead cells low = none := by
  induction cells with
  | nil => rfl
  | cons cell rest ih =>
    obtain ⟨c, v⟩ := cell
    have hc : low < c := h (c, v) (by simp)
    have hne : c ≠ low := by omega
    simp [sensorRead, hne, ih fun x hx => h x (by simp [hx])]

/-- In a canonical list a forgotten code is unknown. -/
theorem sensorRead_forget_same {cells : List SensorCell} (code : Nat) (h : codesRise cells = true) :
    sensorRead (sensorForget cells code) code = none := by
  induction cells with
  | nil => rfl
  | cons cell rest ih =>
    obtain ⟨c, v⟩ := cell
    obtain ⟨ha, hr⟩ := codesRise_cons.1 h
    simp only [sensorForget]
    split
    · subst_vars; exact sensorRead_of_codesAbove ha
    · simp [sensorRead, ih hr, *]

/-- Whatever is listed after a write was listed before it, or is the written code. -/
theorem mem_sensorWrite {cells : List SensorCell} {code : Nat} {w : Word} {cell : SensorCell}
    (h : cell ∈ sensorWrite cells code w) : cell = (code, w) ∨ cell ∈ cells := by
  induction cells with
  | nil => simpa [sensorWrite] using h
  | cons head rest ih =>
    obtain ⟨c, v⟩ := head
    simp only [sensorWrite] at h
    split at h
    · simpa using h
    · split at h
      · simp only [List.mem_cons] at h ⊢; tauto
      · simp only [List.mem_cons] at h ⊢
        rcases h with h | h
        · exact .inr (.inl h)
        · rcases ih h with h | h
          · exact .inl h
          · exact .inr (.inr h)

/-- Whatever is listed after forgetting was listed before it. -/
theorem mem_sensorForget {cells : List SensorCell} {code : Nat} {cell : SensorCell}
    (h : cell ∈ sensorForget cells code) : cell ∈ cells := by
  induction cells with
  | nil => simp [sensorForget] at h
  | cons head rest ih =>
    obtain ⟨c, v⟩ := head
    simp only [sensorForget] at h
    split at h
    · simp [h]
    · simp only [List.mem_cons] at h ⊢
      exact h.imp_right ih

/-- A write keeps the codes rising. -/
theorem codesRise_write {cells : List SensorCell} (code : Nat) (w : Word) (h : codesRise cells = true) :
    codesRise (sensorWrite cells code w) = true := by
  induction cells with
  | nil => rfl
  | cons head rest ih =>
    obtain ⟨c, v⟩ := head
    obtain ⟨ha, hr⟩ := codesRise_cons.1 h
    simp only [sensorWrite]
    split
    · rename_i hlt
      refine codesRise_cons.2 ⟨?_, h⟩
      intro x hx
      rcases List.mem_cons.1 hx with rfl | hx
      · exact hlt
      · exact lt_trans hlt (ha x hx)
    · split
      · subst_vars; exact codesRise_cons.2 ⟨ha, hr⟩
      · refine codesRise_cons.2 ⟨?_, ih hr⟩
        intro x hx
        rcases mem_sensorWrite hx with rfl | hx
        · simp only; omega
        · exact ha x hx

/-- Forgetting keeps the codes rising. -/
theorem codesRise_forget {cells : List SensorCell} (code : Nat) (h : codesRise cells = true) :
    codesRise (sensorForget cells code) = true := by
  induction cells with
  | nil => rfl
  | cons head rest ih =>
    obtain ⟨c, v⟩ := head
    obtain ⟨ha, hr⟩ := codesRise_cons.1 h
    simp only [sensorForget]
    split
    · exact hr
    · exact codesRise_cons.2 ⟨fun x hx => ha x (mem_sensorForget hx), ih hr⟩

/-- A write to a register the block writes keeps the canonical form. -/
theorem wf_sensorWrite {cells : List SensorCell} {code : Nat} (w : Word) (h : Memory.wf cells = true)
    (hc : code < 4) : Memory.wf (sensorWrite cells code w) = true := by
  simp only [Memory.wf, Bool.and_eq_true, List.all_eq_true, decide_eq_true_eq] at h ⊢
  refine ⟨codesRise_write code w h.1, fun x hx => ?_⟩
  rcases mem_sensorWrite hx with rfl | hx
  · exact hc
  · exact h.2 x hx

/-- Forgetting keeps the canonical form. -/
theorem wf_sensorForget {cells : List SensorCell} (code : Nat) (h : Memory.wf cells = true) :
    Memory.wf (sensorForget cells code) = true := by
  simp only [Memory.wf, Bool.and_eq_true, List.all_eq_true, decide_eq_true_eq] at h ⊢
  exact ⟨codesRise_forget code h.1, fun x hx => h.2 x (mem_sensorForget hx)⟩

/-- The keys of the four registers the block writes, and of the three it reads. -/
theorem regKey_lt_four_iff (reg : SensorReg) :
    regKey reg < 4 ↔ reg = .conf ∨ reg = .thrHi ∨ reg = .thrLo ∨ reg = .psm := by
  cases reg <;> decide

/-- Two registers with one key are one register. -/
theorem regKey_injective {a b : SensorReg} (h : regKey a = regKey b) : a = b := by
  revert h; cases a <;> cases b <;> decide

/-- The canonical form knows nothing of the registers the block only reads. -/
theorem sensorHolds_unlisted {cells : List SensorCell} {code : Nat} (h : Memory.wf cells = true) (hc : 4 ≤ code) :
    sensorRead cells code = none := by
  simp only [Memory.wf, Bool.and_eq_true, List.all_eq_true, decide_eq_true_eq] at h
  have hall := h.2
  clear h
  induction cells with
  | nil => rfl
  | cons head rest ih =>
    obtain ⟨c, v⟩ := head
    have := hall (c, v) (by simp)
    simp only at this
    have hne : c ≠ code := by omega
    simp [sensorRead, hne, ih fun x hx => hall x (by simp [hx])]

/-- A transaction keeps the canonical form, when a write goes to a register the block writes. -/
theorem wf_sensorAfter {cells : List SensorCell} (q : Request) (a : Answer) (h : Memory.wf cells = true)
    (hq : ∀ reg w, q = .write reg w → regKey reg < 4) : Memory.wf (sensorAfter q a cells) = true := by
  cases q with
  | read reg => cases a <;> exact h
  | write reg w =>
    cases a with
    | ok v => exact wf_sensorWrite w h (hq reg w rfl)
    | err t => exact wf_sensorForget _ h

/-- Abandoning a transaction keeps the canonical form. -/
theorem wf_sensorAfterAbandon {cells : List SensorCell} (seq : Sequencer) (h : Memory.wf cells = true) :
    Memory.wf (sensorAfterAbandon seq cells) = true := by
  unfold sensorAfterAbandon
  split
  · exact wf_sensorForget _ h
  · exact h

end Sys2Proof.Laws
end

