-- ==== Sys2Proof/Laws/Ops.lean ====
section
/-! SUPPORT. For each shared operation one lemma that says everything it can do; the proofs about meanings cite these
and do not unfold the operations. -/

namespace Sys2Proof.Laws
open Sys2Proof.Machine

variable {s t : State}

/-- The sequencer is idle or waits. -/
theorem seq_cases (q : Sequencer) : q = .idle ∨ ∃ r k, q = .waiting r k := by
  cases q with
  | idle => exact .inl rfl
  | waiting r k => exact .inr ⟨r, k, rfl⟩

/-! ### Validated operands and data -/

@[simp] theorem withValue_some {α : Type} (v : α) (k : α → State → State) (s : State) :
    withValue (some v) k s = k v s := rfl

@[simp] theorem withValue_none {α : Type} (k : α → State → State) (s : State) :
    withValue none k s = s.raise .invalidValue := rfl

@[simp] theorem withData_some {α : Type} (v : α) (k : α → State → State) (s : State) :
    withData (some v) k s = k v s := rfl

@[simp] theorem withData_none {α : Type} (k : α → State → State) (s : State) :
    withData none k s = s.raise .noData := rfl

/-! ### The drive against the transport's answers -/

@[simp] theorem driveWith_nil (s : State) : driveWith [] s = { s with answers := [] } := rfl

/-- An idle block takes no answer. -/
theorem driveWith_idle (as : List Answer) (h : s.seq = .idle) : driveWith as s = { s with answers := as } := by
  cases as with
  | nil => rfl
  | cons a rest => simp [driveWith, h]

/-- An outstanding transaction takes the next answer. -/
theorem driveWith_waiting {q : Request} {k : Resume} (a : Answer) (rest : List Answer) (h : s.seq = .waiting q k) :
    driveWith (a :: rest) s = driveWith rest (s.complete q k a) := by
  simp [driveWith, h]

/-- An answered transaction neither reads nor writes the answers to come. -/
theorem complete_answers (s : State) (bs : List Answer) (q : Request) (k : Resume) (a : Answer) :
    ({ s with answers := bs } : State).complete q k a = { s.complete q k a with answers := bs } := by
  cases a with
  | err e => rfl
  | ok w =>
    cases k with
    | powerSaving e m =>
      by_cases hc : s.dev.psmEn = e ∧ s.dev.psm = m <;>
        simp [State.complete, State.resumeWith, State.setPowerSaving, State.setField, State.record, hc,
          State.writeImage, shadowImage, State.issue, State.finish, State.respond]
    | sampleAls r => cases r <;> rfl
    | calibrateSampling =>
      simp only [State.complete, State.resumeWith, State.judge, State.record]
      split <;> rfl
    | _ => rfl

/-- Driving does not look at the answers field of the state it starts from. -/
theorem driveWith_answers (as bs : List Answer) (s : State) :
    driveWith as { s with answers := bs } = driveWith as s := by
  induction as generalizing s with
  | nil => rfl
  | cons a rest ih =>
    rcases seq_cases s.seq with hseq | ⟨q, k, hseq⟩
    · have hb : ({ s with answers := bs } : State).seq = .idle := hseq
      rw [driveWith_idle _ hseq, driveWith_idle _ hb]
    · have hb : ({ s with answers := bs } : State).seq = .waiting q k := hseq
      rw [driveWith_waiting a rest hseq, driveWith_waiting a rest hb, complete_answers]
      exact ih _

/-- Driving against two runs of answers is driving against one after the other. -/
theorem driveWith_append (as bs : List Answer) (s : State) :
    driveWith (as ++ bs) s =
      match (driveWith as s).seq with
      | .idle => { driveWith as s with answers := (driveWith as s).answers ++ bs }
      | .waiting _ _ => driveWith bs (driveWith as s) := by
  induction as generalizing s with
  | nil =>
    rcases seq_cases s.seq with hseq | ⟨q, k, hseq⟩
    · simp [driveWith_idle _ hseq, hseq]
    · rw [List.nil_append, driveWith_nil]
      simp only [driveWith_answers]
      rw [hseq]
  | cons a rest ih =>
    rcases seq_cases s.seq with hseq | ⟨q, k, hseq⟩
    · simp [driveWith_idle _ hseq, hseq]
    · rw [List.cons_append, driveWith_waiting _ _ hseq, driveWith_waiting _ _ hseq]
      exact ih _

/-- An idle block is driven nowhere. -/
@[simp] theorem drive_idle (h : s.seq = .idle) : s.drive = s := by
  rw [State.drive, driveWith_idle _ h]

/-- An answer given while driving an idle block's response changes nothing else. -/
@[simp] theorem drive_respond (s : State) (r : Response) : (s.respond r).drive = s.respond r := drive_idle rfl

@[simp] theorem drive_finish (s : State) (a : Arg) : (s.finish a).drive = s.finish a := drive_idle rfl

@[simp] theorem drive_raise (s : State) (e : OpError) : (s.raise e).drive = s.raise e := drive_idle rfl

/-- With no answer to come an operation that issued a transaction stays in flight. -/
theorem drive_issue_nil (q : Request) (k : Resume) (h : s.answers = []) : (s.issue q k).drive = s.issue q k := by
  cases s; simp_all [State.drive, State.issue]

/-- With an answer to come it goes on. -/
theorem drive_issue_cons {a : Answer} {rest : List Answer} (q : Request) (k : Resume) (h : s.answers = a :: rest) :
    (s.issue q k).drive = driveWith rest ((s.issue q k).complete q k a) := by
  rw [State.drive, issue_answers, h]
  exact driveWith_waiting a rest rfl

/-! ### The command port and the bus port -/

/-- An idle block accepts a command. -/
theorem accept_idle (op : State → State) (h : s.seq = .idle) : s.accept op = .next (op s).drive := by
  simp [State.accept, h]

/-- A busy block holds the host. -/
theorem accept_busy {q : Request} {k : Resume} (op : State → State) (h : s.seq = .waiting q k) :
    s.accept op = .next s := by
  simp [State.accept, h]

/-- Everything the command port can do. -/
theorem accept_cases (op : State → State) (s : State) :
    (s.seq = .idle ∧ s.accept op = .next (op s).drive) ∨ (s.seq ≠ .idle ∧ s.accept op = .next s) := by
  cases h : s.seq with
  | idle => exact .inl ⟨rfl, accept_idle op h⟩
  | waiting q k => exact .inr ⟨by simp, accept_busy op h⟩

/-- Everything the bus port can do when it answers a next state. -/
theorem transact_next {q : Request} {w : Word} (h : s.transact q w = .next t) :
    ∃ k, s.seq = .waiting q k ∧ t = (s.complete q k (.ok w)).drive := by
  unfold State.transact at h
  split at h
  · cases h
  · rename_i o k hs
    split at h
    · rename_i he
      subst he
      cases h
      exact ⟨k, hs, rfl⟩
    · cases h

/-- The bus port answers the outstanding transaction. -/
theorem transact_waiting {q : Request} {k : Resume} (w : Word) (h : s.seq = .waiting q k) :
    s.transact q w = .next (s.complete q k (.ok w)).drive := by
  simp [State.transact, h]

/-! ### The setter discipline -/

/-- An unchanged value: the response and nothing else. -/
theorem setField_unchanged (s : State) (new : DeviceState) (reg : SensorReg) :
    s.setField true new reg = s.finish resultNone := rfl

/-- A changed value: stored, and its register's image on the bus. -/
theorem setField_changed {w : Word} (s : State) (new : DeviceState) (reg : SensorReg)
    (h : shadowImage s.cfg new reg = some w) :
    s.setField false new reg = { s with dev := new }.issue (.write reg w) .respond := by
  simp [State.setField, State.writeImage, h]

/-- Everything writing an image can do. -/
theorem writeImage_cases (s : State) (reg : SensorReg) (k : Resume) :
    (∃ w, shadowImage s.cfg s.dev reg = some w ∧ s.writeImage reg k = s.issue (.write reg w) k) ∨
    (shadowImage s.cfg s.dev reg = none ∧ s.writeImage reg k = s.finish resultNone) := by
  unfold State.writeImage
  cases shadowImage s.cfg s.dev reg with
  | none => exact .inr ⟨rfl, rfl⟩
  | some w => exact .inl ⟨w, rfl, rfl⟩

@[simp] theorem writeImage_conf (s : State) (k : Resume) :
    s.writeImage .conf k = s.issue (.write .conf (confImage s.cfg s.dev)) k := rfl

@[simp] theorem writeImage_psm (s : State) (k : Resume) :
    s.writeImage .psm k = s.issue (.write .psm (psmImage s.cfg s.dev)) k := rfl

/-! ### Answered transactions -/

/-- A failed transaction ends the operation, the fields of S as they were (60_exceptions R222). -/
@[simp] theorem complete_err (s : State) (q : Request) (k : Resume) (e : TransportError) :
    s.complete q k (.err e) = (s.record q (.err e)).raise (.transport e) := rfl

@[simp] theorem complete_respond (s : State) (q : Request) (w : Word) :
    s.complete q .respond (.ok w) = (s.record q (.ok w)).finish resultNone := rfl

@[simp] theorem complete_calibrateAdjusting (s : State) (q : Request) (w : Word) :
    s.complete q .calibrateAdjusting (.ok w) = (s.record q (.ok w)).issue (.read .als) .calibrateSampling := rfl

/-- CALIBRATE's judgment of a count: stop, or one adjustment stored and its CONF image on the bus
(43_autorange_ops R198). -/
theorem judge_cases (s : State) (count : Word) :
    (calibrateAdjustment s.dev count = none ∧ s.judge count = s.finish resultNone) ∨
    (∃ d, calibrateAdjustment s.dev count = some d ∧
      s.judge count = { s with dev := d }.issue (.write .conf (confImage s.cfg d)) .calibrateAdjusting) := by
  unfold State.judge
  cases calibrateAdjustment s.dev count with
  | none => exact .inl ⟨rfl, rfl⟩
  | some d => exact .inr ⟨d, rfl, rfl⟩

/-- CALIBRATE stops adjusting exactly on a SWEET count: its two "nothing left" arms cannot be reached
(43_autorange_ops R196 corner case (a)). -/
theorem calibrateAdjustment_none_iff (d : DeviceState) (count : Word) :
    calibrateAdjustment d count = none ↔ classify d.gain d.it count = .sweet := by
  obtain ⟨g, t, p, ie, sd, m, me, th, tl, al, wh, ev⟩ := d
  constructor
  · intro h
    by_contra hne
    revert h hne
    simp only [calibrateAdjustment, classify]
    by_cases h1 : count.toNat < lowCount <;> by_cases h2 : highCount < count.toNat <;>
      cases g <;> cases t <;> simp [h1, h2, gainBelowMax, gainAboveMin, gainEighths, itMillis, refMillis,
        steppedGain, steppedIt, gainUp, gainDown, itUp, itDown, nextAfter, gainLadder, itLadder]
  · intro h
    simp [calibrateAdjustment, h]

/-! ### The fetch and the step -/

/-- The reset input comes first. -/
theorem step_reset (h : s.resetIn = true) : step s = .next s.hardReset := by
  simp [step, fetch, h]

end Sys2Proof.Laws
end

