-- ==== Sys2Proof/Laws/Meanings.lean ====
section
/-! SUPPORT. One lemma that says once what `exec` does with a command: an idle block runs its operation against the
answers (a busy one holds the host: `accept_busy`). -/

namespace Sys2Proof.Laws
open Sys2Proof.Machine

/-- Each command as its `State → State` operation, up to its first transaction. -/
def started (i : Instr) (s : State) : State :=
  match i with
  | .packGainE index =>
      (withValue (gainAt index) packGain) s
  | .packGainF x =>
      (withValue (matchGain x) packGain) s
  | .packItE index =>
      (withValue (itAt index) packIt) s
  | .packItF x =>
      (withValue (matchIt x) packIt) s
  | .packPersE index =>
      (withValue (persAt index) packPers) s
  | .packPersF x =>
      (withValue (matchPers x) packPers) s
  | .packInten b =>
      (packFlag .conf fieldIntEn b) s
  | .packSd b =>
      (packFlag .conf fieldSd b) s
  | .packPsm n =>
      (withValue (psmOfInt n) packPsm) s
  | .packPsmen b =>
      (packFlag .psm fieldPsmEn b) s
  | .packThr n =>
      s.finish (resultWord (truncate16 n))
  | .unpackGain w =>
      (withValue (decodeGain s.cfg w) fun g s => s.finish (resultGain g)) s
  | .unpackIt w =>
      (withValue (decodeIt s.cfg w) fun t s => s.finish (resultWhole (itMillis t))) s
  | .unpackPers w =>
      (withValue (decodePers s.cfg w) fun c s => s.finish (resultWhole (persCount c))) s
  | .unpackInten w =>
      (unpackFlag fieldIntEn w) s
  | .unpackSd w =>
      (unpackFlag fieldSd w) s
  | .unpackPsm w =>
      (withValue (decodePsm s.cfg w) fun m s => s.finish (resultNat (psmNumber m))) s
  | .unpackPsmen w =>
      (unpackFlag fieldPsmEn w) s
  | .unpackEvent w =>
      s.finish (resultEvent (decodeEvent w))
  | .confWord =>
      s.finish (resultWord (confImage s.cfg s.dev))
  | .psmWord =>
      s.finish (resultWord (psmImage s.cfg s.dev))
  | .setGainE index =>
      (withValue (gainAt index) setGain) s
  | .setGainF x =>
      (withValue (matchGain x) setGain) s
  | .setItE index =>
      (withValue (itAt index) setIt) s
  | .setItF x =>
      (withValue (matchIt x) setIt) s
  | .setPersE index =>
      (withValue (persAt index) setPers) s
  | .setPersF x =>
      (withValue (matchPers x) setPers) s
  | .setInten b =>
      (setIntEn b) s
  | .setSd b =>
      (setSd b) s
  | .setPsm n =>
      (withValue (psmOfInt n) setPsm) s
  | .setPsmen b =>
      (setPsmEn b) s
  | .setPower status =>
      (withValue (powerOfCode status) fun p s => s.setPower p) s
  | .setThrh n =>
      (setThrHi (truncate16 n)) s
  | .setThrl n =>
      (setThrLo (truncate16 n)) s
  | .sample readAls readWhite =>
      if readAls then s.issue (.read .als) (.sampleAls readWhite)
      else if readWhite then s.issue (.read .white) (.sampleWhite false)
      else s.respond ⟨.empty, resultNone⟩
  | .getGain =>
      s.finish (resultGain s.dev.gain)
  | .getIt =>
      s.finish (resultWhole (itMillis s.dev.it))
  | .getPers =>
      s.finish (resultWhole (persCount s.dev.pers))
  | .getInten =>
      s.finish (resultBool s.dev.intEn)
  | .getSd =>
      s.finish (resultBool s.dev.sd)
  | .getPsm =>
      s.finish (resultNat (psmNumber s.dev.psm))
  | .getPsmen =>
      s.finish (resultBool s.dev.psmEn)
  | .getPower =>
      s.finish (resultPower (powerStatus s.dev))
  | .getThrh =>
      (withData s.dev.thrHi fun w s => s.finish (resultWord w)) s
  | .getThrl =>
      (withData s.dev.thrLo fun w s => s.finish (resultWord w)) s
  | .getAls =>
      (withData s.dev.als fun w s => s.finish (resultWord w)) s
  | .getWhite =>
      (withData s.dev.white fun w s => s.finish (resultWord w)) s
  | .getEvent =>
      (withData s.dev.event fun e s => s.finish (resultEvent e)) s
  | .luxRes =>
      s.finish (resultNum 0#64 (luxResolution s.cfg s.dev))
  | .luxOvf =>
      s.finish (resultNum 0#64 (luxOverflowValue s.cfg s.dev))
  | .hlc x =>
      (finishLux x (highLuxCorrection s.cfg (numOfBits x))) s
  | .raw2lux w =>
      (finishLux (resultWord w) (rawToLux s.cfg s.dev w)) s
  | .lux =>
      (withData s.dev.als fun w s => finishLux (resultWord w) (rawToLux s.cfg s.dev w) s) s
  | .isOvf =>
      (withData s.dev.als fun w s => s.finish (resultBool (isOverflowing w))) s
  | .isUnf =>
      (withData s.dev.als fun w s => s.finish (resultBool (isUnderflowing w))) s
  | .refresh =>
      match refreshMillis s.cfg s.dev with
      | none => s.respond ⟨.infinite, resultNone⟩
      | some ms => s.finish (resultNat ms)
  | .classify =>
      (withData s.dev.als fun w s => s.finish (resultClass (classify s.dev.gain s.dev.it w))) s
  | .gainUp =>
      (stepTo (gainUp s.dev.gain) setGain) s
  | .gainDn =>
      (stepTo (gainDown s.dev.gain) setGain) s
  | .itUp =>
      (stepTo (itUp s.dev.it) setIt) s
  | .itDn =>
      (stepTo (itDown s.dev.it) setIt) s
  | .calibrate =>
      s.issue (.read .als) .calibrateSampling
  | .pollEvent =>
      if s.dev.intEn then s.issue (.read .int) .pollEvent
      else s.respond ⟨.noEvent, resultNone⟩
  | .busConf _ _ _ _ _ => s
  | .busThrHi _ => s
  | .busThrLo _ => s
  | .busPsm _ _ => s
  | .busAls _ => s
  | .busWhite _ => s
  | .busInt _ _ => s

/-- Everything a command does to an idle block: its operation, driven against the answers. -/
theorem exec_idle (i : Instr) {s : State} (h : isBusRow i = false) (hs : s.seq = .idle) :
    exec i s = .next (started i s).drive := by
  have key : ∀ op : State → State, s.accept op = .next (op s).drive := fun op => accept_idle op hs
  cases i
  all_goals try (simp only [exec, execPackGainE, execPackGainF, execPackItE, execPackItF, execPackPersE, execPackPersF,
      execPackInten, execPackSd, execPackPsm, execPackPsmen, execPackThr, execUnpackGain, execUnpackIt,
      execUnpackPers, execUnpackInten, execUnpackSd, execUnpackPsm, execUnpackPsmen, execUnpackEvent,
      execConfWord, execPsmWord, execSetGainE, execSetGainF, execSetItE, execSetItF, execSetPersE,
      execSetPersF, execSetInten, execSetSd, execSetPsm, execSetPsmen, execSetPower, execSetThrh,
      execSetThrl, execSample, execGetGain, execGetIt, execGetPers, execGetInten, execGetSd, execGetPsm,
      execGetPsmen, execGetPower, execGetThrh, execGetThrl, execGetAls, execGetWhite, execGetEvent,
      execLuxRes, execLuxOvf, execHlc, execRaw2lux, execLux, execIsOvf, execIsUnf, execRefresh,
      execClassify, execGainUp, execGainDn, execItUp, execItDn, execCalibrate, execPollEvent, started, key]; done)
  all_goals first | (cases h; done) | (simp only [exec, execRefresh]; rw [key]; rfl)

/-- An idle block issued no transaction. -/
theorem exec_bus_idle (i : Instr) {s : State} (h : isBusRow i = true) (hs : s.seq = .idle) :
    exec i s = .refused .transactionNotIssued := by
  cases i <;> simp [exec, isBusRow, execBusConf, execBusThrHi, execBusThrLo, execBusPsm, execBusAls, execBusWhite,
      execBusInt, State.transact, hs] at h ⊢

end Sys2Proof.Laws
end

