-- ==== Sys2Proof/Laws/Numerics.lean ====
section
/-! SUPPORT. The operations of NUM on finite numbers as the roundings they are, the value of a finite number, and one
lemma that says everything `fpow` can do. -/

namespace Sys2Proof.Laws
open Sys2Proof.Machine

/-! ### Values -/

@[simp] theorem numValue_fin (neg : Bool) (mag : Nat) :
    numValue (.fin neg mag) = some ((if neg then -1 else 1) * (mag : ℚ) / 2 ^ 1074) := rfl

/-- A number with a value is finite. -/
theorem numValue_some {x : Machine.Num} {q : ℚ} (h : numValue x = some q) :
    ∃ neg mag, x = .fin neg mag ∧ q = (if neg then -1 else 1) * (mag : ℚ) / 2 ^ 1074 := by
  cases x with
  | fin neg mag => exact ⟨neg, mag, rfl, (Option.some.inj h).symm⟩
  | inf neg => cases h
  | nan => cases h

/-- The value of a finite number is its signed magnitude in units of 2^-1074. -/
theorem numValue_signedMag (neg : Bool) (mag : Nat) :
    numValue (.fin neg mag) = some ((signedMag neg mag : ℚ) / 2 ^ 1074) := by
  cases neg <;> simp [signedMag]

/-! ### The operations on finite numbers -/

theorem fmul_fin (a b : Bool) (m n : Nat) :
    fmul (.fin a m) (.fin b n) = roundNum (a != b) (m * n) 1074 := rfl

theorem fadd_fin (a b : Bool) (m n : Nat) :
    fadd (.fin a m) (.fin b n) =
      if signedMag a m + signedMag b n = 0 then .fin (a && b) 0
      else roundNum (decide (signedMag a m + signedMag b n < 0)) (signedMag a m + signedMag b n).natAbs 0 := rfl

theorem fsub_fin (a b : Bool) (m n : Nat) :
    fsub (.fin a m) (.fin b n) = fadd (.fin a m) (.fin (!b) n) := rfl

theorem fgt_fin (a b : Bool) (m n : Nat) :
    fgt (.fin a m) (.fin b n) = decide (signedMag b n < signedMag a m) := rfl

/-- A negated magnitude. -/
theorem signedMag_not (b : Bool) (m : Nat) : signedMag (!b) m = -signedMag b m := by
  cases b <;> simp [signedMag]

/-! ### The power -/

/-- No listed deviation, no listed answer. -/
theorem powListed_nil (p : Params) (x : Machine.Num) (n : Nat) (h : p.powDev = []) : powListed p x n = none := by
  simp [powListed, h]

/-- Everything `fpow` can do with a finite operand. -/
theorem fpow_fin_cases (p : Params) (neg : Bool) (mag n : Nat) :
    (∃ y, powListed p (.fin neg mag) n = some y ∧ powAllowed y neg mag n = true ∧ fpow p (.fin neg mag) n = y) ∨
    ((∀ y, powListed p (.fin neg mag) n = some y → powAllowed y neg mag n = false) ∧
      fpow p (.fin neg mag) n = powNearest neg mag n) := by
  cases h : powListed p (.fin neg mag) n with
  | none => exact .inr ⟨fun _ hy => (nomatch hy), by simp [fpow, h]⟩
  | some y =>
    cases ha : powAllowed y neg mag n with
    | true => exact .inl ⟨y, rfl, ha, by simp [fpow, h, ha]⟩
    | false => exact .inr ⟨fun z hz => Option.some.inj hz ▸ ha, by simp [fpow, h, ha]⟩

end Sys2Proof.Laws
end

