-- ==== Sys2Proof/Laws/PerInstr.lean ====
section
/-! SUPPORT. The family `TableRow`: the encoder's word of every well-formed instruction carries its opcode-table row's
match under the row's mask, both copied from spec/opcode_table.json and not from the encoder. -/

namespace Sys2Proof.Laws
open Sys2Proof Sys2Proof.Machine

/-- A port word has the match under the mask, at the given length. -/
def tableWordIs (nbits mask value : Nat) : PortWord → Prop
  | .command w => nbits = 72 ∧ w &&& BitVec.ofNat 72 mask = BitVec.ofNat 72 value
  | .bus w => nbits = 24 ∧ w &&& BitVec.ofNat 24 mask = BitVec.ofNat 24 value

/-- The row of spec/opcode_table.json: its length, mask and match. -/
def tableRow : Instr → Nat × Nat × Nat
  | .packGainE _ => (72, 0xFFFFFFFFFFFFFFFFF0, 0x010000000000000000)
  | .packGainF _ => (72, 0xFF0000000000000000, 0x810000000000000000)
  | .packItE _ => (72, 0xFFFFFFFFFFFFFFFFF0, 0x020000000000000000)
  | .packItF _ => (72, 0xFF0000000000000000, 0x820000000000000000)
  | .packPersE _ => (72, 0xFFFFFFFFFFFFFFFFF0, 0x030000000000000000)
  | .packPersF _ => (72, 0xFF0000000000000000, 0x830000000000000000)
  | .packInten _ => (72, 0xFFFFFFFFFFFFFFFFFE, 0x040000000000000000)
  | .packSd _ => (72, 0xFFFFFFFFFFFFFFFFFE, 0x050000000000000000)
  | .packPsm _ => (72, 0xFF0000000000000000, 0x060000000000000000)
  | .packPsmen _ => (72, 0xFFFFFFFFFFFFFFFFFE, 0x070000000000000000)
  | .packThr _ => (72, 0xFF0000000000000000, 0x080000000000000000)
  | .unpackGain _ => (72, 0xFFFFFFFFFFFFFF0000, 0x090000000000000000)
  | .unpackIt _ => (72, 0xFFFFFFFFFFFFFF0000, 0x0A0000000000000000)
  | .unpackPers _ => (72, 0xFFFFFFFFFFFFFF0000, 0x0B0000000000000000)
  | .unpackInten _ => (72, 0xFFFFFFFFFFFFFF0000, 0x0C0000000000000000)
  | .unpackSd _ => (72, 0xFFFFFFFFFFFFFF0000, 0x0D0000000000000000)
  | .unpackPsm _ => (72, 0xFFFFFFFFFFFFFF0000, 0x0E0000000000000000)
  | .unpackPsmen _ => (72, 0xFFFFFFFFFFFFFF0000, 0x0F0000000000000000)
  | .unpackEvent _ => (72, 0xFFFFFFFFFFFFFF0000, 0x100000000000000000)
  | .confWord => (72, 0xFFFFFFFFFFFFFFFFFF, 0x110000000000000000)
  | .psmWord => (72, 0xFFFFFFFFFFFFFFFFFF, 0x120000000000000000)
  | .setGainE _ => (72, 0xFFFFFFFFFFFFFFFFF0, 0x200000000000000000)
  | .setGainF _ => (72, 0xFF0000000000000000, 0xA00000000000000000)
  | .setItE _ => (72, 0xFFFFFFFFFFFFFFFFF0, 0x210000000000000000)
  | .setItF _ => (72, 0xFF0000000000000000, 0xA10000000000000000)
  | .setPersE _ => (72, 0xFFFFFFFFFFFFFFFFF0, 0x220000000000000000)
  | .setPersF _ => (72, 0xFF0000000000000000, 0xA20000000000000000)
  | .setInten _ => (72, 0xFFFFFFFFFFFFFFFFFE, 0x230000000000000000)
  | .setSd _ => (72, 0xFFFFFFFFFFFFFFFFFE, 0x240000000000000000)
  | .setPsm _ => (72, 0xFF0000000000000000, 0x250000000000000000)
  | .setPsmen _ => (72, 0xFFFFFFFFFFFFFFFFFE, 0x260000000000000000)
  | .setPower _ => (72, 0xFFFFFFFFFFFFFFFFF8, 0x270000000000000000)
  | .setThrh _ => (72, 0xFF0000000000000000, 0x280000000000000000)
  | .setThrl _ => (72, 0xFF0000000000000000, 0x290000000000000000)
  | .sample _ _ => (72, 0xFFFFFFFFFFFFFFFFFC, 0x2F0000000000000000)
  | .getGain => (72, 0xFFFFFFFFFFFFFFFFFF, 0x300000000000000000)
  | .getIt => (72, 0xFFFFFFFFFFFFFFFFFF, 0x310000000000000000)
  | .getPers => (72, 0xFFFFFFFFFFFFFFFFFF, 0x320000000000000000)
  | .getInten => (72, 0xFFFFFFFFFFFFFFFFFF, 0x330000000000000000)
  | .getSd => (72, 0xFFFFFFFFFFFFFFFFFF, 0x340000000000000000)
  | .getPsm => (72, 0xFFFFFFFFFFFFFFFFFF, 0x350000000000000000)
  | .getPsmen => (72, 0xFFFFFFFFFFFFFFFFFF, 0x360000000000000000)
  | .getPower => (72, 0xFFFFFFFFFFFFFFFFFF, 0x370000000000000000)
  | .getThrh => (72, 0xFFFFFFFFFFFFFFFFFF, 0x380000000000000000)
  | .getThrl => (72, 0xFFFFFFFFFFFFFFFFFF, 0x390000000000000000)
  | .getAls => (72, 0xFFFFFFFFFFFFFFFFFF, 0x3A0000000000000000)
  | .getWhite => (72, 0xFFFFFFFFFFFFFFFFFF, 0x3B0000000000000000)
  | .getEvent => (72, 0xFFFFFFFFFFFFFFFFFF, 0x3C0000000000000000)
  | .luxRes => (72, 0xFFFFFFFFFFFFFFFFFF, 0x400000000000000000)
  | .luxOvf => (72, 0xFFFFFFFFFFFFFFFFFF, 0x410000000000000000)
  | .hlc _ => (72, 0xFF0000000000000000, 0x420000000000000000)
  | .raw2lux _ => (72, 0xFFFFFFFFFFFFFF0000, 0x430000000000000000)
  | .lux => (72, 0xFFFFFFFFFFFFFFFFFF, 0x440000000000000000)
  | .isOvf => (72, 0xFFFFFFFFFFFFFFFFFF, 0x450000000000000000)
  | .isUnf => (72, 0xFFFFFFFFFFFFFFFFFF, 0x460000000000000000)
  | .refresh => (72, 0xFFFFFFFFFFFFFFFFFF, 0x470000000000000000)
  | .classify => (72, 0xFFFFFFFFFFFFFFFFFF, 0x500000000000000000)
  | .gainUp => (72, 0xFFFFFFFFFFFFFFFFFF, 0x510000000000000000)
  | .gainDn => (72, 0xFFFFFFFFFFFFFFFFFF, 0x520000000000000000)
  | .itUp => (72, 0xFFFFFFFFFFFFFFFFFF, 0x530000000000000000)
  | .itDn => (72, 0xFFFFFFFFFFFFFFFFFF, 0x540000000000000000)
  | .calibrate => (72, 0xFFFFFFFFFFFFFFFFFF, 0x550000000000000000)
  | .pollEvent => (72, 0xFFFFFFFFFFFFFFFFFF, 0x600000000000000000)
  | .busConf _ _ _ _ _ => (24, 0xFFE40C, 0x000000)
  | .busThrHi _ => (24, 0xFF0000, 0x010000)
  | .busThrLo _ => (24, 0xFF0000, 0x020000)
  | .busPsm _ _ => (24, 0xFFFFF8, 0x030000)
  | .busAls _ => (24, 0xFF0000, 0x040000)
  | .busWhite _ => (24, 0xFF0000, 0x050000)
  | .busInt _ _ => (24, 0xFF0000, 0x060000)

/-- The encoder's word of a well-formed instruction is a word of its table row. -/
def TableRow.Statement (i : Instr) : Prop :=
  i.wf = true → tableWordIs (tableRow i).1 (tableRow i).2.1 (tableRow i).2.2 (encode i)

/-- A command word whose argument has no bit outside the form's keeps `op` under the row's mask. -/
theorem commandWord_masked (op : BitVec 8) (a used : Arg) (h : a &&& ~~~used = 0#64) :
    commandWord op a &&& (0xFF#8 ++ ~~~used) = op ++ 0#64 := by
  have h64 : ∀ k, a.getLsbD k = true → used.getLsbD k = true ∨ ¬ k < 64 := by
    intro k hk
    have := congrArg (fun v => v.getLsbD k) h
    simp only [BitVec.getLsbD_and, BitVec.getLsbD_not, hk, Bool.true_and, BitVec.getLsbD_zero] at this
    by_cases hk64 : k < 64
    · simp_all
    · exact .inr hk64
  apply BitVec.eq_of_getLsbD_eq
  intro k hk
  simp only [commandWord, BitVec.getLsbD_and, BitVec.getLsbD_append, BitVec.getLsbD_not, BitVec.getLsbD_zero]
  by_cases hk64 : k < 64
  · simp only [hk64, decide_true, if_true, Bool.true_and]
    by_cases ha : a.getLsbD k = true
    · rcases h64 k ha with h1 | h1
      · simp [h1]
      · exact absurd hk64 h1
    · simp [Bool.not_eq_true] at ha; simp [ha]
  · have : (0xFF#8).getLsbD (k - 64) = true := by
      have hlt : k - 64 < 8 := by omega
      interval_cases k - 64 <;> rfl
    simp [hk64, this]

/-- `commandWord_masked` with the row's mask and match as the table's numbers. -/
theorem command_row (op : BitVec 8) (a used : Arg) (mask value : Nat) (h : a &&& ~~~used = 0#64)
    (hm : BitVec.ofNat 72 mask = 0xFF#8 ++ ~~~used) (hv : BitVec.ofNat 72 value = op ++ 0#64) :
    commandWord op a &&& BitVec.ofNat 72 mask = BitVec.ofNat 72 value := by
  rw [hm, hv]; exact commandWord_masked op a used h

/-- An argument below `2 ^ n` has no bit at or above `n`. -/
theorem argNat_masked (n a : Nat) (h : a < 2 ^ n) :
    argNat a &&& ~~~(BitVec.ofNat 64 (2 ^ n - 1)) = 0#64 := by
  apply BitVec.eq_of_getLsbD_eq
  intro k hk
  simp only [argNat, BitVec.getLsbD_and, BitVec.getLsbD_not, BitVec.getLsbD_ofNat, hk,
    decide_true, Bool.true_and, Nat.testBit_two_pow_sub_one]
  by_cases hkn : k < n
  · simp [hkn]
  · have : a.testBit k = false := Nat.testBit_lt_two_pow (lt_of_lt_of_le h (Nat.pow_le_pow_right (by norm_num) (by omega)))
    simp [this]

/-- Form B's argument uses bit 0 alone. -/
theorem argB_masked (b : Bool) : argB b &&& ~~~(0x1#64) = 0#64 := by cases b <;> decide

/-- Form S's argument uses bits 1:0 alone. -/
theorem argS_masked (a w : Bool) : argS a w &&& ~~~(0x3#64) = 0#64 := by cases a <;> cases w <;> decide

/-- Form W's argument uses bits 15:0 alone. -/
theorem argW_masked (w : Word) : argW w &&& ~~~(0xFFFF#64) = 0#64 := by
  have h : argW w = argNat w.toNat := by
    apply BitVec.eq_of_toNat_eq
    have := w.isLt
    simp only [argW, argNat, BitVec.toNat_setWidth, BitVec.toNat_ofNat]
  rw [h]
  exact argNat_masked 16 w.toNat w.isLt

/-- Form E's argument uses bits 3:0 alone. -/
theorem argE_masked (index : Nat) (h : fitsIndex index = true) : argNat index &&& ~~~(0xF#64) = 0#64 :=
  argNat_masked 4 index (by simpa [fitsIndex] using h)

/-- Form P's argument uses bits 2:0 alone. -/
theorem argP_masked (status : Nat) (h : fitsPower status = true) : argNat status &&& ~~~(0x7#64) = 0#64 :=
  argNat_masked 3 status (by simpa [fitsPower] using h)

/-- Forms F and I use every bit. -/
theorem argFull_masked (a : Arg) : a &&& ~~~(0xFFFFFFFFFFFFFFFF#64) = 0#64 := by
  have : (~~~(0xFFFFFFFFFFFFFFFF#64) : Arg) = 0#64 := by decide
  rw [this, BitVec.and_zero]

/-- Form N uses none. -/
theorem argN_masked : argN &&& ~~~(0#64) = 0#64 := by decide

/-- The seven bus rows: the code over a word whose unassigned bits are zero. -/
theorem busRow_masked (code : Code) (w assigned : Word) (h : w &&& ~~~assigned = 0#16) :
    busRow code w &&& (0xFF#8 ++ ~~~assigned) = code ++ 0#16 := by
  apply BitVec.eq_of_getLsbD_eq
  intro k hk
  simp only [busRow, BitVec.getLsbD_and, BitVec.getLsbD_append]
  by_cases hk16 : k < 16
  · have hb := congrArg (fun v => v.getLsbD k) h
    simp only [BitVec.getLsbD_and] at hb
    simp only [hk16, if_true, hb]
  · have : (0xFF#8).getLsbD (k - 16) = true := by
      have hlt : k - 16 < 8 := by omega
      interval_cases k - 16 <;> rfl
    simp only [hk16, if_false, this, Bool.and_true]

/-- `busRow_masked` with the row's mask and match as the table's numbers. -/
theorem bus_row (code : Code) (w assigned : Word) (mask value : Nat) (h : w &&& ~~~assigned = 0#16)
    (hm : BitVec.ofNat 24 mask = 0xFF#8 ++ ~~~assigned) (hv : BitVec.ofNat 24 value = code ++ 0#16) :
    busRow code w &&& BitVec.ofNat 24 mask = BitVec.ofNat 24 value := by
  rw [hm, hv]; exact busRow_masked code w assigned h

/-- The encoder leaves CONF's unassigned bits 0. -/
theorem confOfCodes_masked (g : BitVec 2) (t : BitVec 4) (p : BitVec 2) (i sd : BitVec 1) :
    confOfCodes g t p i sd &&& ~~~(0x1BF3#16) = 0#16 := by
  revert g t p i sd; decide +kernel

/-- The encoder leaves PSM's unassigned bits 0. -/
theorem psmOfCodes_masked (m : BitVec 2) (e : BitVec 1) : psmOfCodes m e &&& ~~~(0x0007#16) = 0#16 := by
  revert m e; decide

/-- Every bit of a raw count is assigned. -/
theorem wordFull_masked (w : Word) : w &&& ~~~(0xFFFF#16) = 0#16 := by
  have : (~~~(0xFFFF#16) : Word) = 0#16 := by decide
  rw [this, BitVec.and_zero]

theorem TableRow.packGainE (index : Nat) : TableRow.Statement (.packGainE index) :=
  fun h => ⟨rfl,
    command_row _ _ _ 0xFFFFFFFFFFFFFFFFF0 0x010000000000000000 (argE_masked index h) (by decide) (by decide)⟩

theorem TableRow.packGainF (x : Arg) : TableRow.Statement (.packGainF x) :=
  fun _ => ⟨rfl,
    command_row _ _ _ 0xFF0000000000000000 0x810000000000000000 (argFull_masked x) (by decide) (by decide)⟩

theorem TableRow.packItE (index : Nat) : TableRow.Statement (.packItE index) :=
  fun h => ⟨rfl,
    command_row _ _ _ 0xFFFFFFFFFFFFFFFFF0 0x020000000000000000 (argE_masked index h) (by decide) (by decide)⟩

theorem TableRow.packItF (x : Arg) : TableRow.Statement (.packItF x) :=
  fun _ => ⟨rfl,
    command_row _ _ _ 0xFF0000000000000000 0x820000000000000000 (argFull_masked x) (by decide) (by decide)⟩

theorem TableRow.packPersE (index : Nat) : TableRow.Statement (.packPersE index) :=
  fun h => ⟨rfl,
    command_row _ _ _ 0xFFFFFFFFFFFFFFFFF0 0x030000000000000000 (argE_masked index h) (by decide) (by decide)⟩

theorem TableRow.packPersF (x : Arg) : TableRow.Statement (.packPersF x) :=
  fun _ => ⟨rfl,
    command_row _ _ _ 0xFF0000000000000000 0x830000000000000000 (argFull_masked x) (by decide) (by decide)⟩

theorem TableRow.packInten (b : Bool) : TableRow.Statement (.packInten b) :=
  fun _ => ⟨rfl,
    command_row _ _ _ 0xFFFFFFFFFFFFFFFFFE 0x040000000000000000 (argB_masked b) (by decide) (by decide)⟩

theorem TableRow.packSd (b : Bool) : TableRow.Statement (.packSd b) :=
  fun _ => ⟨rfl,
    command_row _ _ _ 0xFFFFFFFFFFFFFFFFFE 0x050000000000000000 (argB_masked b) (by decide) (by decide)⟩

theorem TableRow.packPsm (n : Int) : TableRow.Statement (.packPsm n) :=
  fun _ => ⟨rfl,
    command_row _ _ _ 0xFF0000000000000000 0x060000000000000000 (argFull_masked (argI n)) (by decide) (by decide)⟩

theorem TableRow.packPsmen (b : Bool) : TableRow.Statement (.packPsmen b) :=
  fun _ => ⟨rfl,
    command_row _ _ _ 0xFFFFFFFFFFFFFFFFFE 0x070000000000000000 (argB_masked b) (by decide) (by decide)⟩

theorem TableRow.packThr (n : Int) : TableRow.Statement (.packThr n) :=
  fun _ => ⟨rfl,
    command_row _ _ _ 0xFF0000000000000000 0x080000000000000000 (argFull_masked (argI n)) (by decide) (by decide)⟩

theorem TableRow.unpackGain (w : Word) : TableRow.Statement (.unpackGain w) :=
  fun _ => ⟨rfl,
    command_row _ _ _ 0xFFFFFFFFFFFFFF0000 0x090000000000000000 (argW_masked w) (by decide) (by decide)⟩

theorem TableRow.unpackIt (w : Word) : TableRow.Statement (.unpackIt w) :=
  fun _ => ⟨rfl,
    command_row _ _ _ 0xFFFFFFFFFFFFFF0000 0x0A0000000000000000 (argW_masked w) (by decide) (by decide)⟩

theorem TableRow.unpackPers (w : Word) : TableRow.Statement (.unpackPers w) :=
  fun _ => ⟨rfl,
    command_row _ _ _ 0xFFFFFFFFFFFFFF0000 0x0B0000000000000000 (argW_masked w) (by decide) (by decide)⟩

theorem TableRow.unpackInten (w : Word) : TableRow.Statement (.unpackInten w) :=
  fun _ => ⟨rfl,
    command_row _ _ _ 0xFFFFFFFFFFFFFF0000 0x0C0000000000000000 (argW_masked w) (by decide) (by decide)⟩

theorem TableRow.unpackSd (w : Word) : TableRow.Statement (.unpackSd w) :=
  fun _ => ⟨rfl,
    command_row _ _ _ 0xFFFFFFFFFFFFFF0000 0x0D0000000000000000 (argW_masked w) (by decide) (by decide)⟩

theorem TableRow.unpackPsm (w : Word) : TableRow.Statement (.unpackPsm w) :=
  fun _ => ⟨rfl,
    command_row _ _ _ 0xFFFFFFFFFFFFFF0000 0x0E0000000000000000 (argW_masked w) (by decide) (by decide)⟩

theorem TableRow.unpackPsmen (w : Word) : TableRow.Statement (.unpackPsmen w) :=
  fun _ => ⟨rfl,
    command_row _ _ _ 0xFFFFFFFFFFFFFF0000 0x0F0000000000000000 (argW_masked w) (by decide) (by decide)⟩

theorem TableRow.unpackEvent (w : Word) : TableRow.Statement (.unpackEvent w) :=
  fun _ => ⟨rfl,
    command_row _ _ _ 0xFFFFFFFFFFFFFF0000 0x100000000000000000 (argW_masked w) (by decide) (by decide)⟩

theorem TableRow.confWord : TableRow.Statement .confWord :=
  fun _ => ⟨rfl,
    command_row _ _ _ 0xFFFFFFFFFFFFFFFFFF 0x110000000000000000 argN_masked (by decide) (by decide)⟩

theorem TableRow.psmWord : TableRow.Statement .psmWord :=
  fun _ => ⟨rfl,
    command_row _ _ _ 0xFFFFFFFFFFFFFFFFFF 0x120000000000000000 argN_masked (by decide) (by decide)⟩

theorem TableRow.setGainE (index : Nat) : TableRow.Statement (.setGainE index) :=
  fun h => ⟨rfl,
    command_row _ _ _ 0xFFFFFFFFFFFFFFFFF0 0x200000000000000000 (argE_masked index h) (by decide) (by decide)⟩

theorem TableRow.setGainF (x : Arg) : TableRow.Statement (.setGainF x) :=
  fun _ => ⟨rfl,
    command_row _ _ _ 0xFF0000000000000000 0xA00000000000000000 (argFull_masked x) (by decide) (by decide)⟩

theorem TableRow.setItE (index : Nat) : TableRow.Statement (.setItE index) :=
  fun h => ⟨rfl,
    command_row _ _ _ 0xFFFFFFFFFFFFFFFFF0 0x210000000000000000 (argE_masked index h) (by decide) (by decide)⟩

theorem TableRow.setItF (x : Arg) : TableRow.Statement (.setItF x) :=
  fun _ => ⟨rfl,
    command_row _ _ _ 0xFF0000000000000000 0xA10000000000000000 (argFull_masked x) (by decide) (by decide)⟩

theorem TableRow.setPersE (index : Nat) : TableRow.Statement (.setPersE index) :=
  fun h => ⟨rfl,
    command_row _ _ _ 0xFFFFFFFFFFFFFFFFF0 0x220000000000000000 (argE_masked index h) (by decide) (by decide)⟩

theorem TableRow.setPersF (x : Arg) : TableRow.Statement (.setPersF x) :=
  fun _ => ⟨rfl,
    command_row _ _ _ 0xFF0000000000000000 0xA20000000000000000 (argFull_masked x) (by decide) (by decide)⟩

theorem TableRow.setInten (b : Bool) : TableRow.Statement (.setInten b) :=
  fun _ => ⟨rfl,
    command_row _ _ _ 0xFFFFFFFFFFFFFFFFFE 0x230000000000000000 (argB_masked b) (by decide) (by decide)⟩

theorem TableRow.setSd (b : Bool) : TableRow.Statement (.setSd b) :=
  fun _ => ⟨rfl,
    command_row _ _ _ 0xFFFFFFFFFFFFFFFFFE 0x240000000000000000 (argB_masked b) (by decide) (by decide)⟩

theorem TableRow.setPsm (n : Int) : TableRow.Statement (.setPsm n) :=
  fun _ => ⟨rfl,
    command_row _ _ _ 0xFF0000000000000000 0x250000000000000000 (argFull_masked (argI n)) (by decide) (by decide)⟩

theorem TableRow.setPsmen (b : Bool) : TableRow.Statement (.setPsmen b) :=
  fun _ => ⟨rfl,
    command_row _ _ _ 0xFFFFFFFFFFFFFFFFFE 0x260000000000000000 (argB_masked b) (by decide) (by decide)⟩

theorem TableRow.setPower (status : Nat) : TableRow.Statement (.setPower status) :=
  fun h => ⟨rfl,
    command_row _ _ _ 0xFFFFFFFFFFFFFFFFF8 0x270000000000000000 (argP_masked status h) (by decide) (by decide)⟩

theorem TableRow.setThrh (n : Int) : TableRow.Statement (.setThrh n) :=
  fun _ => ⟨rfl,
    command_row _ _ _ 0xFF0000000000000000 0x280000000000000000 (argFull_masked (argI n)) (by decide) (by decide)⟩

theorem TableRow.setThrl (n : Int) : TableRow.Statement (.setThrl n) :=
  fun _ => ⟨rfl,
    command_row _ _ _ 0xFF0000000000000000 0x290000000000000000 (argFull_masked (argI n)) (by decide) (by decide)⟩

theorem TableRow.sample (readAls readWhite : Bool) : TableRow.Statement (.sample readAls readWhite) :=
  fun _ => ⟨rfl,
    command_row _ _ _ 0xFFFFFFFFFFFFFFFFFC 0x2F0000000000000000 (argS_masked readAls readWhite) (by decide) (by decide)⟩

theorem TableRow.getGain : TableRow.Statement .getGain :=
  fun _ => ⟨rfl,
    command_row _ _ _ 0xFFFFFFFFFFFFFFFFFF 0x300000000000000000 argN_masked (by decide) (by decide)⟩

theorem TableRow.getIt : TableRow.Statement .getIt :=
  fun _ => ⟨rfl,
    command_row _ _ _ 0xFFFFFFFFFFFFFFFFFF 0x310000000000000000 argN_masked (by decide) (by decide)⟩

theorem TableRow.getPers : TableRow.Statement .getPers :=
  fun _ => ⟨rfl,
    command_row _ _ _ 0xFFFFFFFFFFFFFFFFFF 0x320000000000000000 argN_masked (by decide) (by decide)⟩

theorem TableRow.getInten : TableRow.Statement .getInten :=
  fun _ => ⟨rfl,
    command_row _ _ _ 0xFFFFFFFFFFFFFFFFFF 0x330000000000000000 argN_masked (by decide) (by decide)⟩

theorem TableRow.getSd : TableRow.Statement .getSd :=
  fun _ => ⟨rfl,
    command_row _ _ _ 0xFFFFFFFFFFFFFFFFFF 0x340000000000000000 argN_masked (by decide) (by decide)⟩

theorem TableRow.getPsm : TableRow.Statement .getPsm :=
  fun _ => ⟨rfl,
    command_row _ _ _ 0xFFFFFFFFFFFFFFFFFF 0x350000000000000000 argN_masked (by decide) (by decide)⟩

theorem TableRow.getPsmen : TableRow.Statement .getPsmen :=
  fun _ => ⟨rfl,
    command_row _ _ _ 0xFFFFFFFFFFFFFFFFFF 0x360000000000000000 argN_masked (by decide) (by decide)⟩

theorem TableRow.getPower : TableRow.Statement .getPower :=
  fun _ => ⟨rfl,
    command_row _ _ _ 0xFFFFFFFFFFFFFFFFFF 0x370000000000000000 argN_masked (by decide) (by decide)⟩

theorem TableRow.getThrh : TableRow.Statement .getThrh :=
  fun _ => ⟨rfl,
    command_row _ _ _ 0xFFFFFFFFFFFFFFFFFF 0x380000000000000000 argN_masked (by decide) (by decide)⟩

theorem TableRow.getThrl : TableRow.Statement .getThrl :=
  fun _ => ⟨rfl,
    command_row _ _ _ 0xFFFFFFFFFFFFFFFFFF 0x390000000000000000 argN_masked (by decide) (by decide)⟩

theorem TableRow.getAls : TableRow.Statement .getAls :=
  fun _ => ⟨rfl,
    command_row _ _ _ 0xFFFFFFFFFFFFFFFFFF 0x3A0000000000000000 argN_masked (by decide) (by decide)⟩

theorem TableRow.getWhite : TableRow.Statement .getWhite :=
  fun _ => ⟨rfl,
    command_row _ _ _ 0xFFFFFFFFFFFFFFFFFF 0x3B0000000000000000 argN_masked (by decide) (by decide)⟩

theorem TableRow.getEvent : TableRow.Statement .getEvent :=
  fun _ => ⟨rfl,
    command_row _ _ _ 0xFFFFFFFFFFFFFFFFFF 0x3C0000000000000000 argN_masked (by decide) (by decide)⟩

theorem TableRow.luxRes : TableRow.Statement .luxRes :=
  fun _ => ⟨rfl,
    command_row _ _ _ 0xFFFFFFFFFFFFFFFFFF 0x400000000000000000 argN_masked (by decide) (by decide)⟩

theorem TableRow.luxOvf : TableRow.Statement .luxOvf :=
  fun _ => ⟨rfl,
    command_row _ _ _ 0xFFFFFFFFFFFFFFFFFF 0x410000000000000000 argN_masked (by decide) (by decide)⟩

theorem TableRow.hlc (x : Arg) : TableRow.Statement (.hlc x) :=
  fun _ => ⟨rfl,
    command_row _ _ _ 0xFF0000000000000000 0x420000000000000000 (argFull_masked x) (by decide) (by decide)⟩

theorem TableRow.raw2lux (w : Word) : TableRow.Statement (.raw2lux w) :=
  fun _ => ⟨rfl,
    command_row _ _ _ 0xFFFFFFFFFFFFFF0000 0x430000000000000000 (argW_masked w) (by decide) (by decide)⟩

theorem TableRow.lux : TableRow.Statement .lux :=
  fun _ => ⟨rfl,
    command_row _ _ _ 0xFFFFFFFFFFFFFFFFFF 0x440000000000000000 argN_masked (by decide) (by decide)⟩

theorem TableRow.isOvf : TableRow.Statement .isOvf :=
  fun _ => ⟨rfl,
    command_row _ _ _ 0xFFFFFFFFFFFFFFFFFF 0x450000000000000000 argN_masked (by decide) (by decide)⟩

theorem TableRow.isUnf : TableRow.Statement .isUnf :=
  fun _ => ⟨rfl,
    command_row _ _ _ 0xFFFFFFFFFFFFFFFFFF 0x460000000000000000 argN_masked (by decide) (by decide)⟩

theorem TableRow.refresh : TableRow.Statement .refresh :=
  fun _ => ⟨rfl,
    command_row _ _ _ 0xFFFFFFFFFFFFFFFFFF 0x470000000000000000 argN_masked (by decide) (by decide)⟩

theorem TableRow.classify : TableRow.Statement .classify :=
  fun _ => ⟨rfl,
    command_row _ _ _ 0xFFFFFFFFFFFFFFFFFF 0x500000000000000000 argN_masked (by decide) (by decide)⟩

theorem TableRow.gainUp : TableRow.Statement .gainUp :=
  fun _ => ⟨rfl,
    command_row _ _ _ 0xFFFFFFFFFFFFFFFFFF 0x510000000000000000 argN_masked (by decide) (by decide)⟩

theorem TableRow.gainDn : TableRow.Statement .gainDn :=
  fun _ => ⟨rfl,
    command_row _ _ _ 0xFFFFFFFFFFFFFFFFFF 0x520000000000000000 argN_masked (by decide) (by decide)⟩

theorem TableRow.itUp : TableRow.Statement .itUp :=
  fun _ => ⟨rfl,
    command_row _ _ _ 0xFFFFFFFFFFFFFFFFFF 0x530000000000000000 argN_masked (by decide) (by decide)⟩

theorem TableRow.itDn : TableRow.Statement .itDn :=
  fun _ => ⟨rfl,
    command_row _ _ _ 0xFFFFFFFFFFFFFFFFFF 0x540000000000000000 argN_masked (by decide) (by decide)⟩

theorem TableRow.calibrate : TableRow.Statement .calibrate :=
  fun _ => ⟨rfl,
    command_row _ _ _ 0xFFFFFFFFFFFFFFFFFF 0x550000000000000000 argN_masked (by decide) (by decide)⟩

theorem TableRow.pollEvent : TableRow.Statement .pollEvent :=
  fun _ => ⟨rfl,
    command_row _ _ _ 0xFFFFFFFFFFFFFFFFFF 0x600000000000000000 argN_masked (by decide) (by decide)⟩

theorem TableRow.busConf (g : BitVec 2) (t : BitVec 4) (p : BitVec 2) (i sd : BitVec 1) : TableRow.Statement (.busConf g t p i sd) :=
  fun _ => ⟨rfl,
    bus_row _ _ _ 0xFFE40C 0x000000 (confOfCodes_masked g t p i sd) (by decide) (by decide)⟩

theorem TableRow.busThrHi (h : Word) : TableRow.Statement (.busThrHi h) :=
  fun _ => ⟨rfl,
    bus_row _ _ _ 0xFF0000 0x010000 (wordFull_masked h) (by decide) (by decide)⟩

theorem TableRow.busThrLo (l : Word) : TableRow.Statement (.busThrLo l) :=
  fun _ => ⟨rfl,
    bus_row _ _ _ 0xFF0000 0x020000 (wordFull_masked l) (by decide) (by decide)⟩

theorem TableRow.busPsm (m : BitVec 2) (e : BitVec 1) : TableRow.Statement (.busPsm m e) :=
  fun _ => ⟨rfl,
    bus_row _ _ _ 0xFFFFF8 0x030000 (psmOfCodes_masked m e) (by decide) (by decide)⟩

theorem TableRow.busAls (a : Word) : TableRow.Statement (.busAls a) :=
  fun _ => ⟨rfl,
    bus_row _ _ _ 0xFF0000 0x040000 (wordFull_masked a) (by decide) (by decide)⟩

theorem TableRow.busWhite (w : Word) : TableRow.Statement (.busWhite w) :=
  fun _ => ⟨rfl,
    bus_row _ _ _ 0xFF0000 0x050000 (wordFull_masked w) (by decide) (by decide)⟩

theorem TableRow.busInt (v : BitVec 2) (ignored : BitVec 14) : TableRow.Statement (.busInt v ignored) :=
  fun _ => ⟨rfl,
    bus_row _ _ _ 0xFF0000 0x060000 (wordFull_masked (intOfFields v ignored)) (by decide) (by decide)⟩

end Sys2Proof.Laws
end

