-- ==== Sys2Proof/Tests/Slice0.lean ====
section
/-! SUPPORT. The model's own tests: the WellFormed smoke, words written out from the spec's encodings, the vectors of
95_test_vectors (V, S and P entries name them), and for each statement a state and operands that meet its hypotheses. -/

namespace Sys2Proof.Tests
open Sys2Proof.Machine

/-! ### Helpers -/

/-- A state at a configuration and with answers to come. -/
def at' (d : DeviceState) (as : List Answer) : State := { State.reset with dev := d, answers := as }

/-- Right after reset, with answers to come. -/
def fresh (as : List Answer) : State := at' resetDevice as

/-- The next state, if there is one. -/
def nextOf (o : Host.Outcome State Fault Refusal) : Option State :=
  match o with
  | .next t => some t
  | _ => none

/-- The response to one operation. -/
def answerTo (i : Instr) (s : State) : Option Response := (nextOf (exec i s)).bind fun t => t.responses.getLast?

/-- The bus trace of one operation. -/
def traceOf (i : Instr) (s : State) : Option (List BusEvent) := (nextOf (exec i s)).map fun t => t.trace

/-- S after one operation. -/
def devOf (i : Instr) (s : State) : Option DeviceState := (nextOf (exec i s)).map fun t => t.dev

/-- The response OK with a result. -/
def okOf (a : Arg) : Option Response := some ⟨.ok, a⟩

/-- The response INVALID_VALUE. -/
def invalid : Option Response := some ⟨.invalidValue, 0#64⟩

/-! ### WellFormed smoke: each check refuses an ill-formed term -/

theorem test_wf_refuses_index :
    (Instr.packGainE 16).wf = false ∧ (Instr.packItE 16).wf = false ∧ (Instr.packPersE 16).wf = false ∧
    (Instr.setGainE 16).wf = false ∧ (Instr.setItE 16).wf = false ∧ (Instr.setPersE 16).wf = false ∧
    (Instr.setItE 15).wf = true := by decide

theorem test_wf_refuses_power_code : (Instr.setPower 8).wf = false ∧ (Instr.setPower 7).wf = true := by decide

theorem test_wf_refuses_wide_integer :
    (Instr.packPsm (2 ^ 63)).wf = false ∧ (Instr.packThr (-(2 ^ 63) - 1)).wf = false ∧
    (Instr.setPsm (2 ^ 63)).wf = false ∧ (Instr.setThrh (2 ^ 63)).wf = false ∧
    (Instr.setThrl (-(2 ^ 63) - 1)).wf = false ∧ (Instr.setThrl (-(2 ^ 63))).wf = true := by decide

/-! ### Decoding: every constructor's word, written from 30_encoding R60, R73, R80, R82, R84 -/

theorem test_decode_pack :
    decode (.command 0x010000000000000001#72) = .ok (.packGainE 1) ∧
    decode (.command 0x813FD0000000000000#72) = .ok (.packGainF 0x3FD0000000000000#64) ∧
    decode (.command 0x020000000000000005#72) = .ok (.packItE 5) ∧
    decode (.command 0x824062C00000000000#72) = .ok (.packItF 0x4062C00000000000#64) ∧
    decode (.command 0x030000000000000003#72) = .ok (.packPersE 3) ∧
    decode (.command 0x834010000000000000#72) = .ok (.packPersF 0x4010000000000000#64) ∧
    decode (.command 0x040000000000000001#72) = .ok (.packInten true) ∧
    decode (.command 0x050000000000000001#72) = .ok (.packSd true) ∧
    decode (.command 0x060000000000000003#72) = .ok (.packPsm 3) ∧
    decode (.command 0x070000000000000000#72) = .ok (.packPsmen false) ∧
    decode (.command 0x08FFFFFFFFFFFFFFFF#72) = .ok (.packThr (-1)) := by decide

theorem test_decode_unpack :
    decode (.command 0x09000000000000E7FF#72) = .ok (.unpackGain 0xE7FF#16) ∧
    decode (.command 0x0A0000000000000300#72) = .ok (.unpackIt 0x0300#16) ∧
    decode (.command 0x0B0000000000000030#72) = .ok (.unpackPers 0x0030#16) ∧
    decode (.command 0x0C0000000000000002#72) = .ok (.unpackInten 0x0002#16) ∧
    decode (.command 0x0D0000000000000001#72) = .ok (.unpackSd 0x0001#16) ∧
    decode (.command 0x0E0000000000000004#72) = .ok (.unpackPsm 0x0004#16) ∧
    decode (.command 0x0F0000000000000007#72) = .ok (.unpackPsmen 0x0007#16) ∧
    decode (.command 0x100000000000008000#72) = .ok (.unpackEvent 0x8000#16) ∧
    decode (.command 0x110000000000000000#72) = .ok .confWord ∧
    decode (.command 0x120000000000000000#72) = .ok .psmWord := by decide

theorem test_decode_set :
    decode (.command 0x200000000000000003#72) = .ok (.setGainE 3) ∧
    decode (.command 0xA04000000000000000#72) = .ok (.setGainF 0x4000000000000000#64) ∧
    decode (.command 0x210000000000000000#72) = .ok (.setItE 0) ∧
    decode (.command 0xA14069000000000000#72) = .ok (.setItF 0x4069000000000000#64) ∧
    decode (.command 0x220000000000000002#72) = .ok (.setPersE 2) ∧
    decode (.command 0xA23FF0000000000000#72) = .ok (.setPersF 0x3FF0000000000000#64) ∧
    decode (.command 0x230000000000000001#72) = .ok (.setInten true) ∧
    decode (.command 0x240000000000000001#72) = .ok (.setSd true) ∧
    decode (.command 0x250000000000000005#72) = .ok (.setPsm 5) ∧
    decode (.command 0x260000000000000001#72) = .ok (.setPsmen true) ∧
    decode (.command 0x270000000000000005#72) = .ok (.setPower 5) ∧
    decode (.command 0x280000000000011170#72) = .ok (.setThrh 70000) ∧
    decode (.command 0x29FFFFFFFFFFFFFFFF#72) = .ok (.setThrl (-1)) ∧
    decode (.command 0x2F0000000000000001#72) = .ok (.sample true false) ∧
    decode (.command 0x2F0000000000000002#72) = .ok (.sample false true) := by decide

theorem test_decode_get :
    decode (.command 0x300000000000000000#72) = .ok .getGain ∧ decode (.command 0x310000000000000000#72) = .ok .getIt ∧
    decode (.command 0x320000000000000000#72) = .ok .getPers ∧
    decode (.command 0x330000000000000000#72) = .ok .getInten ∧
    decode (.command 0x340000000000000000#72) = .ok .getSd ∧ decode (.command 0x350000000000000000#72) = .ok .getPsm ∧
    decode (.command 0x360000000000000000#72) = .ok .getPsmen ∧
    decode (.command 0x370000000000000000#72) = .ok .getPower ∧
    decode (.command 0x380000000000000000#72) = .ok .getThrh ∧
    decode (.command 0x390000000000000000#72) = .ok .getThrl ∧
    decode (.command 0x3A0000000000000000#72) = .ok .getAls ∧
    decode (.command 0x3B0000000000000000#72) = .ok .getWhite ∧
    decode (.command 0x3C0000000000000000#72) = .ok .getEvent := by decide

theorem test_decode_illuminance :
    decode (.command 0x400000000000000000#72) = .ok .luxRes ∧ decode (.command 0x410000000000000000#72) = .ok .luxOvf ∧
    decode (.command 0x42408F400000000000#72) = .ok (.hlc 0x408F400000000000#64) ∧
    decode (.command 0x4300000000000006C9#72) = .ok (.raw2lux 0x06C9#16) ∧
    decode (.command 0x440000000000000000#72) = .ok .lux ∧ decode (.command 0x450000000000000000#72) = .ok .isOvf ∧
    decode (.command 0x460000000000000000#72) = .ok .isUnf ∧
    decode (.command 0x470000000000000000#72) = .ok .refresh := by decide

theorem test_decode_autorange_and_event :
    decode (.command 0x500000000000000000#72) = .ok .classify ∧
    decode (.command 0x510000000000000000#72) = .ok .gainUp ∧ decode (.command 0x520000000000000000#72) = .ok .gainDn ∧
    decode (.command 0x530000000000000000#72) = .ok .itUp ∧ decode (.command 0x540000000000000000#72) = .ok .itDn ∧
    decode (.command 0x550000000000000000#72) = .ok .calibrate ∧
    decode (.command 0x600000000000000000#72) = .ok .pollEvent := by decide

theorem test_decode_bus :
    decode (.bus 0x001B33#24) = .ok (.busConf 0b11#2 0b1100#4 0b11#2 1#1 1#1) ∧
    decode (.bus 0x012710#24) = .ok (.busThrHi 0x2710#16) ∧ decode (.bus 0x02FFFF#24) = .ok (.busThrLo 0xFFFF#16) ∧
    decode (.bus 0x030005#24) = .ok (.busPsm 0b10#2 1#1) ∧ decode (.bus 0x041234#24) = .ok (.busAls 0x1234#16) ∧
    decode (.bus 0x050456#24) = .ok (.busWhite 0x0456#16) ∧
    decode (.bus 0x068001#24) = .ok (.busInt 0b10#2 1#14) := by decide

/-- V15, 30_encoding R72, R86. -/
theorem test_decode_refuses :
    decode (.command 0x000000000000000000#72) = .error (.undefinedOp 0x00#8) ∧
    decode (.command 0x2A0000000000000000#72) = .error (.undefinedOp 0x2A#8) ∧
    decode (.command 0x110000000000000001#72) = .error (.reservedArgBits 0x11#8) ∧
    decode (.command 0x240000000000000002#72) = .error (.reservedArgBits 0x24#8) ∧
    decode (.command 0x200000000000000010#72) = .error (.reservedArgBits 0x20#8) ∧
    decode (.command 0x270000000000000008#72) = .error (.reservedArgBits 0x27#8) ∧
    decode (.bus 0x000400#24) = .error (.unassignedWordBits 0x00#8) ∧
    decode (.bus 0x030008#24) = .error (.unassignedWordBits 0x03#8) ∧
    decode (.bus 0x070000#24) = .error (.undefinedCode 0x07#8) := by decide

/-- The table's numbering: bit 0 least significant, 72 or 24 bits. -/
theorem test_table_words :
    decodeTableWord 72 0x2F0000000000000003 = some (.sample true true) ∧
    decodeTableWord 24 0x001B33 = some (.busConf 0b11#2 0b1100#4 0b11#2 1#1 1#1) ∧
    decodeTableWord 72 (2 ^ 72) = none := by decide

/-! ### Parameters, reset, memory -/

theorem test_default_parameters_admissible : paramsOk defaultParams = true := by decide

/-- V31: the literals as binary64. -/
theorem test_literals :
    numBits 0#64 (litNum 36 (10 ^ 4)) = 0x3F6D7DBF487FCB92#64 ∧ numBits 0#64 (litNum 236 1) = 0x406D800000000000#64 ∧
    numBits 0#64 coefficient4 = 0x3D65287AB18F283B#64 ∧ numBits 0#64 coefficient3 = 0x3E442B86C91EF46E#64 ∧
    numBits 0#64 coefficient2 = 0x3F155C912E18CAB0#64 ∧ numBits 0#64 coefficient1 = 0x3FF0096BB98C7E28#64 ∧
    numBits 0#64 highLux = 0x4059000000000000#64 := by decide +kernel

theorem test_reset_memory_canonical : Memory.wf State.reset.sensor = true := by decide

theorem test_memory_canonical_form :
    sensorWrite (sensorWrite [] 3 7#16) 0 9#16 = [(0, 9#16), (3, 7#16)] ∧
    sensorForget [(0, 9#16), (3, 7#16)] 0 = [(3, 7#16)] ∧ Memory.wf [(3, 7#16), (0, 9#16)] = false := by decide

/-! ### Codec vectors -/

/-- V2, V14. -/
theorem test_pack_gain :
    answerTo (.packGainE 1) (fresh []) = okOf 0x1800#64 ∧ answerTo (.packGainE 4) (fresh []) = invalid ∧
    answerTo (.packGainF 0x3FD00000001B7CE0#64) (fresh []) = okOf 0x1800#64 ∧
    answerTo (.packGainF 0x3FD0A3D70A3D70A4#64) (fresh []) = invalid ∧
    answerTo (.packGainF 0x7FF8000000000000#64) (fresh []) = invalid := by decide +kernel

/-- V3, V14. -/
theorem test_pack_it :
    answerTo (.packItE 0) (fresh []) = okOf 0x0300#64 ∧ answerTo (.packItE 6) (fresh []) = invalid ∧
    answerTo (.packItF 0x4062C00000000000#64) (fresh []) = invalid ∧
    answerTo (.packItF 0x4089000000000000#64) (fresh []) = okOf 0x00C0#64 := by decide +kernel

/-- V4, V14: exact match only. -/
theorem test_pack_pers :
    answerTo (.packPersE 3) (fresh []) = okOf 0x0030#64 ∧
    answerTo (.packPersF 0x4010000000000000#64) (fresh []) = okOf 0x0020#64 ∧
    answerTo (.packPersF 0x4010000000112E0C#64) (fresh []) = invalid := by decide +kernel

/-- V5, V6. -/
theorem test_pack_flags_and_mode :
    answerTo (.packInten true) (fresh []) = okOf 0x0002#64 ∧ answerTo (.packSd true) (fresh []) = okOf 0x0001#64 ∧
    answerTo (.packPsmen true) (fresh []) = okOf 0x30001#64 ∧ answerTo (.packPsm 3) (fresh []) = okOf 0x30004#64 ∧
    answerTo (.packPsm 0) (fresh []) = invalid ∧ answerTo (.packPsm 5) (fresh []) = invalid := by decide

/-- V7. -/
theorem test_pack_thr :
    answerTo (.packThr 70000) (fresh []) = okOf 0x1170#64 ∧ answerTo (.packThr (-1)) (fresh []) = okOf 0xFFFF#64 ∧
    answerTo (.packThr (-65536)) (fresh []) = okOf 0#64 := by decide

/-- V11, V12. -/
theorem test_unpack_enumerators :
    answerTo (.unpackIt 0x0300#16) (fresh []) = okOf 0x4039000000000000#64 ∧
    answerTo (.unpackIt 0x0100#16) (fresh []) = invalid ∧
    answerTo (.unpackGain 0xFFFF#16) (fresh []) = okOf 0x3FD0000000000000#64 ∧
    answerTo (.unpackGain 0xE7FF#16) (fresh []) = okOf 0x3FF0000000000000#64 ∧
    answerTo (.unpackPers 0x0020#16) (fresh []) = okOf 0x4010000000000000#64 ∧
    answerTo (.unpackPsm 0x0006#16) (fresh []) = okOf 4#64 := by decide +kernel

/-- V12, V13. -/
theorem test_unpack_flags_and_event :
    answerTo (.unpackInten 0x0001#16) (fresh []) = okOf 0#64 ∧ answerTo (.unpackSd 0x0001#16) (fresh []) = okOf 1#64 ∧
    answerTo (.unpackPsmen 0x0006#16) (fresh []) = okOf 0#64 ∧
    answerTo (.unpackEvent 0xBFFF#16) (fresh []) = okOf 2#64 ∧
    answerTo (.unpackEvent 0x4000#16) (fresh []) = okOf 1#64 := by decide

/-- The setting of V8: gain 1/4, 25 ms, persistence 8, interrupts enabled, shut down; mode 4 enabled (V10). -/
def busyDevice : DeviceState :=
  { resetDevice with
    gain := .quarter, it := .ms25, pers := .p8, intEn := true, sd := true, psm := .m4, psmEn := true }

/-- V1, V8, V9, V10. -/
theorem test_whole_words :
    answerTo .confWord (fresh []) = okOf 0#64 ∧ answerTo .confWord (at' busyDevice []) = okOf 0x1B33#64 ∧
    answerTo .psmWord (fresh []) = okOf 0#64 ∧ answerTo .psmWord (at' busyDevice []) = okOf 0x0007#64 := by
  decide

/-! ### Device-state vectors -/

/-- V20: one write, then silence. -/
theorem test_set_gain :
    traceOf (.setGainE 3) (fresh [.ok 0#16]) = some [.write .conf 0x0800#16 none] ∧
    traceOf (.setGainE 2) (fresh [.ok 0#16]) = some [] ∧
    (devOf (.setGainF 0x4000000000000000#64) (fresh [.ok 0#16])).map (·.gain) = some .two := by decide +kernel

/-- R131's example; V21. -/
theorem test_set_it :
    traceOf (.setItE 0) (fresh [.ok 0#16]) = some [.write .conf 0x0300#16 none] ∧
    answerTo (.setItF 0x4062C00000000000#64) (fresh []) = invalid := by decide +kernel

/-- R132's example and corner case. -/
theorem test_set_pers :
    traceOf (.setPersE 2) (fresh [.ok 0#16]) = some [.write .conf 0x0020#16 none] ∧
    traceOf (.setPersF 0x3FF0000000000000#64) (fresh [.ok 0#16]) = some [] := by decide +kernel

/-- The examples of R133 to R136. -/
theorem test_set_flags_and_mode :
    traceOf (.setInten true) (fresh [.ok 0#16]) = some [.write .conf 0x0002#16 none] ∧
    traceOf (.setSd true) (fresh [.ok 0#16]) = some [.write .conf 0x0001#16 none] ∧
    traceOf (.setPsm 3) (fresh [.ok 0#16]) = some [.write .psm 0x0004#16 none] ∧
    traceOf (.setPsmen true) (at' { resetDevice with psm := .m3 } [.ok 0#16]) =
      some [.write .psm 0x0005#16 none] ∧ answerTo (.setPsm 5) (fresh []) = invalid := by decide

/-- V22, V28: up to two writes, CONF first; nothing after a failed one. -/
theorem test_set_power :
    traceOf (.setPower 5) (at' { resetDevice with psmEn := true, psm := .m2 } [.ok 0#16, .ok 0#16]) =
      some [.write .conf 0x0001#16 none, .write .psm 0x0002#16 none] ∧
    traceOf (.setPower 4) (at' { resetDevice with sd := true, psm := .m2 } [.ok 0#16, .ok 0#16]) =
      some [.write .conf 0#16 none, .write .psm 0x0007#16 none] ∧ answerTo (.setPower 6) (fresh []) = invalid ∧
    devOf (.setPower 5) (at' { resetDevice with psmEn := true, psm := .m2 } [.err 1#32]) =
      some { resetDevice with sd := true, psmEn := true, psm := .m2 } := by decide

/-- V23. -/
theorem test_set_thresholds :
    traceOf (.setThrh 4464) (fresh [.ok 0#16]) = some [.write .thrHi 0x1170#16 none] ∧
    traceOf (.setThrh 70000) (at' { resetDevice with thrHi := some 0x1170#16 } [.ok 0#16]) = some [] ∧
    traceOf (.setThrl 0) (fresh [.ok 0#16]) = some [.write .thrLo 0#16 none] := by decide

/-- V24. -/
theorem test_sample :
    answerTo (.sample true true) (fresh [.ok 0x1234#16, .ok 0x0456#16]) = okOf 0x04561234#64 ∧
    answerTo (.sample false true) (fresh [.ok 0x0456#16]) = okOf 0x04560000#64 ∧
    answerTo (.sample false false) (fresh []) = some ⟨.empty, 0#64⟩ := by decide

/-- V25: the store comes before the failed write. -/
theorem test_failed_write :
    answerTo (.setGainE 3) (fresh [.err 0x2A#32]) = some ⟨.transportError, 0x2A#64⟩ ∧
    (devOf (.setGainE 3) (fresh [.err 0x2A#32])).map (·.gain) = some .two := by decide

/-- V27: the white read failed after the ALS read. -/
theorem test_failed_white_read :
    devOf (.sample true true) (fresh [.ok 0x1234#16, .err 7#32]) = some { resetDevice with als := some 0x1234#16 } := by
  decide

/-- V26. -/
theorem test_getters_after_reset :
    answerTo .getGain (fresh []) = okOf 0x3FF0000000000000#64 ∧ answerTo .getIt (fresh []) = okOf 0x4059000000000000#64 ∧
    answerTo .getPers (fresh []) = okOf 0x3FF0000000000000#64 ∧ answerTo .getInten (fresh []) = okOf 0#64 ∧
    answerTo .getSd (fresh []) = okOf 0#64 ∧ answerTo .getPsm (fresh []) = okOf 1#64 ∧
    answerTo .getPsmen (fresh []) = okOf 0#64 ∧ answerTo .getPower (fresh []) = okOf 0#64 ∧
    [Instr.getThrh, .getThrl, .getAls, .getWhite, .getEvent].all
      (fun i => answerTo i (fresh []) = some ⟨.noData, 0#64⟩) = true := by decide +kernel

/-- R150's corner case, R155's codes. -/
theorem test_getters :
    answerTo .getPower (at' busyDevice []) = okOf 5#64 ∧
    answerTo .getEvent (at' { resetDevice with event := some .evLow } []) = okOf 2#64 := by decide

/-! ### Illuminance vectors -/

/-- V30. -/
theorem test_scales :
    answerTo .luxRes (fresh []) = okOf 0x3FAD7DBF487FCB92#64 ∧ answerTo .luxOvf (fresh []) = okOf 0x40AD800000000000#64 ∧
    answerTo .luxRes (at' { resetDevice with gain := .eighth, it := .ms25 } []) = okOf 0x3FFD7DBF487FCB92#64 ∧
    answerTo .luxOvf (at' { resetDevice with gain := .quarter, it := .ms800 } []) = okOf 0x409D800000000000#64 := by
  decide +kernel

/-- V32, V34. -/
theorem test_hlc :
    answerTo (.hlc 0x408F400000000000#64) (fresh []) = okOf 0x4090CBFCE075F6FD#64 ∧
    answerTo (.hlc 0#64) (fresh []) = okOf 0#64 ∧ answerTo (.hlc 0x7FF0000000000000#64) (fresh []) = invalid := by
  decide +kernel

/-- V36, V37, V38: the threshold and the largest count. -/
theorem test_raw2lux :
    answerTo (.raw2lux 1736#16) (fresh []) = okOf 0x4058FF972474538F#64 ∧
    answerTo (.raw2lux 1737#16) (fresh []) = okOf 0x4059459CA50C467C#64 ∧
    answerTo (.raw2lux 0xFFFF#16) (fresh []) = okOf 0x40B1D189A33D242A#64 := by decide +kernel

/-- V40, V42. -/
theorem test_stored_count :
    answerTo .lux (at' { resetDevice with als := some 1000#16 } []) = okOf 0x404CCCCCCCCCCCCD#64 ∧
    answerTo .lux (fresh []) = some ⟨.noData, 0#64⟩ ∧
    answerTo .isOvf (at' { resetDevice with als := some 0xFFFE#16 } []) = okOf 0#64 ∧
    answerTo .isUnf (at' { resetDevice with als := some 0#16 } []) = okOf 1#64 := by decide +kernel

/-- V41. -/
theorem test_refresh :
    answerTo .refresh (fresh []) = okOf 100#64 ∧
    answerTo .refresh (at' { resetDevice with psmEn := true, psm := .m2 } []) = okOf 1100#64 ∧
    answerTo .refresh (at' busyDevice []) = some ⟨.infinite, 0#64⟩ := by decide

/-! ### Auto-range and event vectors -/

/-- V43. -/
theorem test_classify :
    answerTo .classify (at' { resetDevice with als := some 99#16 } []) = okOf 1#64 ∧
    answerTo .classify (at' { resetDevice with als := some 10000#16 } []) = okOf 0#64 ∧
    answerTo .classify (at' { resetDevice with als := some 10001#16 } []) = okOf 2#64 ∧
    answerTo .classify (at' { resetDevice with gain := .eighth, it := .ms25, als := some 0xFFFF#16 } []) = okOf 0#64 := by
  decide

/-- V44. -/
theorem test_step_primitives :
    traceOf .gainUp (at' { resetDevice with gain := .quarter } [.ok 0#16]) = some [.write .conf 0#16 none] ∧
    traceOf .gainDn (fresh [.ok 0#16]) = some [.write .conf 0x1800#16 none] ∧
    traceOf .gainDn (at' { resetDevice with gain := .eighth } [.ok 0#16]) = some [] ∧
    traceOf .itUp (fresh [.ok 0#16]) = some [.write .conf 0x0040#16 none] ∧
    traceOf .itDn (fresh [.ok 0#16]) = some [.write .conf 0x0200#16 none] := by decide

/-- V46; the stored count and the setting after it. -/
theorem test_calibrate :
    traceOf .calibrate (fresh [.ok 50#16, .ok 0#16, .ok 120#16]) =
      some [.read .als (.ok 50#16), .write .conf 0x0800#16 none, .read .als (.ok 120#16)] ∧
    devOf .calibrate (fresh [.ok 50#16, .ok 0#16, .ok 120#16]) =
      some { resetDevice with gain := .two, als := some 120#16 } := by decide

/-- V45: both settings at their minimum. -/
theorem test_calibrate_at_minimum :
    traceOf .calibrate (at' { resetDevice with gain := .eighth, it := .ms25 } [.ok 20000#16]) =
      some [.read .als (.ok 20000#16)] := by decide

/-- R210's examples. -/
theorem test_poll_event :
    answerTo .pollEvent (at' { resetDevice with intEn := true } [.ok 0x8000#16]) = okOf 2#64 ∧
    (devOf .pollEvent (at' { resetDevice with intEn := true } [.ok 0x8000#16])).map (·.event) =
      some (some .evLow) ∧ answerTo .pollEvent (fresh []) = some ⟨.noEvent, 0#64⟩ := by decide

/-! ### Bus rows, and the step -/

/-- SET.GAIN left waiting, then its CONF row. -/
theorem test_bus_conf :
    (nextOf (exec (.busConf 0b01#2 0#4 0#2 0#1 0#1)
      { fresh [] with seq := .waiting (.write .conf 0x0800#16) .respond })).map
        (fun t => (t.responses, t.sensor)) = some ([⟨.ok, 0#64⟩], [(0, 0x0800#16)]) := by decide

/-- The THR and PSM rows. -/
theorem test_bus_writes :
    traceOf (.busThrHi 5#16) { fresh [] with seq := .waiting (.write .thrHi 5#16) .respond } =
      some [.write .thrHi 5#16 none] ∧
    traceOf (.busThrLo 5#16) { fresh [] with seq := .waiting (.write .thrLo 5#16) .respond } =
      some [.write .thrLo 5#16 none] ∧
    traceOf (.busPsm 0b10#2 1#1) { fresh [] with seq := .waiting (.write .psm 0x0005#16) .respond } =
      some [.write .psm 0x0005#16 none] := by decide

/-- The three read rows. -/
theorem test_bus_reads :
    answerTo (.busAls 7#16) { fresh [] with seq := .waiting (.read .als) (.sampleAls false) } = okOf 7#64 ∧
    answerTo (.busWhite 7#16) { fresh [] with seq := .waiting (.read .white) (.sampleWhite false) } =
      okOf 0x70000#64 ∧
    answerTo (.busInt 0b11#2 1#14) { fresh [] with seq := .waiting (.read .int) .pollEvent } = okOf 3#64 := by
  decide

/-- A command placed after reset is the step's first instruction; so is a bus row. -/
theorem test_placed_instructions :
    (nextOf (step (State.reset.withFetchWord 72 0x270000000000000003))).map (·.seq) =
      some (.waiting (.write .psm 0x0005#16) .respond) ∧
    (nextOf (step (State.reset.withFetchWord 24 0x041234))).bind (fun t => t.dev.als) = some 0x1234#16 := by
  decide

/-- An illegal word from the port (V15). -/
theorem test_illegal_command :
    (nextOf (step { State.reset with cmds := [0x130000000000000000#72] })).map (fun t => (t.responses, t.cmds)) =
      some ([⟨.illegalCommand, 0#64⟩], []) := by decide

/-! ### Witnesses: states and operands that meet the hypotheses of the statements -/

/-- An idle state with answers, for the statements whose one hypothesis is an idle block. -/
theorem witness_idle : (fresh [.ok 0#16, .err 1#32]).seq = .idle ∧ (at' busyDevice []).seq = .idle := by decide

/-- A CONF write in flight when reset comes: its register is forgotten, another is kept. -/
def resetDuringWrite : State :=
  { fresh [] with resetIn := true, seq := .waiting (.write .conf 0x0800#16) .respond, sensor := [(0, 5#16), (3, 7#16)] }

theorem witness_ResetInputAbandons :
    resetDuringWrite.resetIn = true ∧ Memory.wf resetDuringWrite.sensor = true ∧
    resetDuringWrite.awaitsWriteOf .conf = true ∧ resetDuringWrite.awaitsWriteOf .psm = false ∧
    resetDuringWrite.sensorHolds .psm = some 7#16 := by decide

/-- A command at the port of an idle block; a read answered `ok`. -/
theorem witness_StepRunsTheInstruction :
    decode (.command 0x550000000000000000#72) = .ok .calibrate ∧
    { fresh [] with seq := .waiting (.read .als) .calibrateSampling }.requestOk = true ∧
    decode (.bus (transactionRow (.read .als) 50#16)) = .ok (.busAls 50#16) ∧
    { at' { resetDevice with thrHi := some 5#16 } [] with seq := .waiting (.write .thrHi 5#16) .respond }.requestOk = true ∧
    decode (.bus (transactionRow (.write .thrHi 5#16) 0#16)) = .ok (.busThrHi 5#16) := by decide

/-- An undefined op, and a reserved argument bit just above a form's bits. -/
theorem witness_IllegalCommandAnswered :
    commandRows.all (fun row => 0x130000000000000000#72 &&& row.2 != row.1) = true ∧
    commandRows.all (fun row => 0x240000000000000002#72 &&& row.2 != row.1) = true ∧
    commandRows.any (fun row => 0x240000000000000001#72 &&& row.2 == row.1) = true := by decide

/-- A failed write and a failed read. -/
theorem witness_TransportErrorEndsTheOperation :
    { fresh [.err 9#32] with seq := .waiting (.write .conf 0#16) .respond, sensor := [(0, 5#16)] }.awaitsWriteOf .conf =
      true ∧
    { fresh [.err 9#32] with seq := .waiting (.read .als) (.sampleAls true) }.answers = [.err 9#32] ∧
    Memory.wf [(0, 5#16)] = true := by decide

/-- Both clauses: idle without a command; waiting without an answer. -/
theorem witness_StepWaits :
    (fresh []).resetIn = false ∧ (fresh []).seq = .idle ∧ (fresh []).cmds = [] ∧
    { fresh [] with seq := .waiting (.read .int) .pollEvent }.seq ≠ .idle ∧ (fresh []).answers = [] := by decide

/-- A command waits at the port while an answered transaction goes on. -/
theorem witness_CommandPortHolds :
    isBusRow .calibrate = false ∧
    (nextOf (step { fresh [.ok 3#16] with
      seq := .waiting (.read .als) (.sampleAls false), cmds := [0x470000000000000000#72] })).map (·.cmds) =
      some [0x470000000000000000#72] := by decide

theorem witness_PlacedInstructionRuns :
    decodeTableWord 72 0x470000000000000000 = some .refresh ∧ decodeTableWord 24 0x050001 = some (.busWhite 1#16) := by
  decide

/-- Operands at both ends of their ranges. -/
theorem witness_DecodeOfEncode :
    (Instr.setItE 15).wf = true ∧ (Instr.setPower 7).wf = true ∧ (Instr.setThrh (-(2 ^ 63))).wf = true ∧
    (Instr.setThrh (2 ^ 63 - 1)).wf = true ∧ (Instr.busConf 3#2 15#4 3#2 1#1 1#1).wf = true := by decide

theorem witness_EncodeOfDecode :
    decode (.command 0x20000000000000000F#72) = .ok (.setGainE 15) ∧
    decode (.bus 0x001BF3#24) = .ok (.busConf 3#2 15#4 3#2 1#1 1#1) := by decide

/-- Numbers that match and numbers that match nothing, for each of the three sets; 0.2500000003 is just outside. -/
theorem witness_matching :
    matchGain 0x3FD0000000000000#64 = some .quarter ∧ matchGain 0x3FD0000000527690#64 = none ∧
    matchIt 0x4089000000000000#64 = some .ms800 ∧ matchIt 0x4062C00000000000#64 = none ∧
    matchPers 0x3FF0000000000000#64 = some .p1 ∧ matchPers 0x4010000000112E0C#64 = none ∧
    matchGain 0x7FF0000000000000#64 = none := by decide +kernel

/-- An integer outside the modes at either end. -/
theorem witness_PackFlagsAndMode : (0 : Int) ∉ [1, 2, 3, 4] ∧ (5 : Int) ∉ [1, 2, 3, 4] := by decide

/-- A defined integration-time code and an undefined one, with admissible parameters. -/
theorem witness_UnpackEnumerators :
    paramsOk (fresh []).cfg = true ∧ itCode (fresh []).cfg .ms25 = (0x0300#16).extractLsb' 6 4 ∧
    itLadder.all (fun t => itCode (fresh []).cfg t ≠ (0x0100#16).extractLsb' 6 4) = true := by decide

/-- A finite number and one that is none. -/
theorem witness_MatchingIsCloseness :
    numOfBits 0x3FD0000000000000#64 = .fin false (2 ^ 1072) ∧ numOfBits 0xFFF0000000000000#64 = .inf true ∧
    numOfBits 0x7FF8000000000000#64 = .nan := by decide +kernel

/-- Two idle states with the same parameters and another S. -/
theorem witness_CodecFamily :
    isCodec (.unpackIt 0x0300#16) = true ∧ isCodec .psmWord = true ∧ (at' busyDevice []).cfg = (fresh []).cfg ∧
    (at' busyDevice []).dev ≠ (fresh []).dev := by decide

theorem witness_PureOperationsOnlyAnswer :
    isPure .lux = true ∧ isPure .getAls = true ∧ isPure .classify = true ∧ isPure .calibrate = false := by decide

/-- Each clause of the setter discipline: unchanged; changed with `ok`, with `err`, with no answer. -/
theorem witness_SetterEffect :
    (fresh []).dev.gain = .one ∧ (fresh []).dev.gain ≠ .two ∧ (fresh [.ok 1#16]).answers = [.ok 1#16] ∧
    (fresh [.err 1#32]).answers = [.err 1#32] ∧ (fresh []).answers = [] ∧ (fresh []).dev.thrHi ≠ some 0#16 ∧
    (at' { resetDevice with thrLo := some 0xFFFF#16 } []).dev.thrLo = some (BitVec.ofNat 16 ((-1 : Int) % 65536).toNat) ∧
    [Gain.eighth, .quarter, .one, .two][3]? = some .two ∧
    [IntegrationTime.ms25, .ms50, .ms100, .ms200, .ms400, .ms800][5]? = some .ms800 := by decide

/-- The four relations of SET.POWER to the state before it. -/
theorem witness_SetPower :
    (powerTarget resetDevice (.save .m2)).sd = resetDevice.sd ∧
    (powerTarget resetDevice .off).sd ≠ resetDevice.sd ∧
    (powerTarget resetDevice .off).psmEn = resetDevice.psmEn ∧ (powerTarget resetDevice .off).psm = resetDevice.psm ∧
    (powerTarget busyDevice .on).sd ≠ busyDevice.sd ∧ (powerTarget busyDevice .on).psmEn ≠ busyDevice.psmEn ∧
    [PowerStatus.on, .save .m1, .save .m2, .save .m3, .save .m4, .off][5]? = some .off := by decide

/-- A setter that ends with a failed write. -/
theorem witness_RepeatedSetterIsSilent :
    isSetter (.setGainE 3) = true ∧ (nextOf (exec (.setGainE 3) (fresh [.err 1#32]))).map (·.seq) = some .idle ∧
    isSetter (.setPower 5) = false := by decide

/-- Both answers of both reads. -/
theorem witness_SampleReads :
    (fresh [.ok 0#16, .err 1#32]).answers = [.ok 0#16, .err 1#32] ∧ (fresh [.ok 0xFFFF#16]).answers = [.ok 0xFFFF#16] := by
  decide

/-- Every clause of the getters: the flags in each combination, each event, set and UNSET. -/
theorem witness_getters :
    busyDevice.sd = true ∧ { busyDevice with sd := false }.psmEn = true ∧ resetDevice.psmEn = false ∧
    resetDevice.als = none ∧ { resetDevice with white := some 0xFFFF#16 }.white = some 0xFFFF#16 ∧
    { resetDevice with event := some .evBoth }.event = some .evBoth := by decide

/-- The value of a positive magnitude. -/
theorem value_fin (mag : Nat) : numValue (.fin false mag) = some ((mag : ℚ) / 2 ^ 1074) := by simp [numValue]

/-- A value of 1 and above. -/
theorem value_pow (c k : Nat) : ((c * 2 ^ (1074 + k) : Nat) : ℚ) / 2 ^ 1074 = c * 2 ^ k := by
  rw [Nat.cast_mul, Nat.cast_pow, pow_add, Nat.cast_ofNat, mul_div_assoc, mul_div_cancel_left₀ _ (by positivity)]

/-- The default bases are normal numbers far below the largest; the smallest subnormal base; a base whose scaled value is
past the range. -/
theorem witness_LuxScalesAreExact :
    defaultParams.maxResolutionLux.msb = false ∧ (defaultParams.maxResolutionLux.extractLsb' 52 11).toNat = 0x3F6 ∧
    (defaultParams.minOverflowLux.extractLsb' 52 11).toNat = 0x406 ∧
    (∃ v, numValue (numOfBits 1#64) = some v ∧ 0 < v ∧ v * 2 ^ 9 < 2 ^ 1024) ∧
    (∃ v, numValue (numOfBits 0x7FE0000000000000#64) = some v ∧ 0 < v ∧ 2 ^ 1024 ≤ v * 2 ^ 1) := by
  have h1 : numOfBits 1#64 = .fin false 1 := by decide
  have h2 : numOfBits 0x7FE0000000000000#64 = .fin false (1 * 2 ^ (1074 + 1023)) := by decide +kernel
  refine ⟨by decide, by decide, by decide, ⟨_, h1 ▸ value_fin _, ?_, ?_⟩, ⟨_, h2 ▸ value_fin _, ?_, ?_⟩⟩
  · positivity
  · rw [Nat.cast_one, div_mul_eq_mul_div, one_mul]
    exact lt_of_le_of_lt (div_le_self (by positivity) (one_le_pow₀ (by norm_num)))
      (pow_lt_pow_right₀ (by norm_num) (by norm_num))
  · positivity
  · rw [value_pow, Nat.cast_one, one_mul, ← pow_add]

/-- A finite operand and an infinity. -/
theorem witness_HighLuxCorrection :
    ((0x408F400000000000#64).extractLsb' 52 11).toNat ≠ 2047 ∧ ((0x7FF0000000000000#64).extractLsb' 52 11).toNat = 2047 := by
  decide

/-- A product at most 100, one above, and, at a resolution near the largest number, one that is infinite. -/
theorem witness_RawToLux :
    fgt (fmul (numOfNat 1736) (luxResolution defaultParams resetDevice)) (litNum 100 1) = false ∧
    fgt (fmul (numOfNat 1737) (luxResolution defaultParams resetDevice)) (litNum 100 1) = true ∧
    numFinite (fmul (numOfNat 1737) (luxResolution defaultParams resetDevice)) = true ∧
    fmul (numOfNat 2) (luxResolution { defaultParams with maxResolutionLux := 0x7FE0000000000000#64 } resetDevice) =
      .inf false := by decide +kernel

/-- Nothing sampled; a stored count of each kind (the products are those of `witness_RawToLux`). -/
theorem witness_StoredCountOperations :
    (fresh []).dev.als = none ∧ (at' { resetDevice with als := some 1736#16 } []).dev.als = some 1736#16 ∧
    (at' { resetDevice with als := some 1737#16 } []).dev.als = some 1737#16 ∧
    (at' { resetDevice with als := some 1737#16 } []).seq = .idle := by decide

theorem witness_RawToLuxNeverFails :
    (fresh []).cfg.maxResolutionLux = defaultParams.maxResolutionLux ∧ (fresh []).cfg.powDev = [] := by decide

/-- Shut down; power saving; neither. -/
theorem witness_RefreshTime :
    paramsOk (fresh []).cfg = true ∧ busyDevice.sd = true ∧ { busyDevice with sd := false }.psmEn = true ∧
    resetDevice.sd = false ∧ resetDevice.psmEn = false := by decide

/-- 1, the largest 53-bit number, and a number that is rounded to a tie's even neighbour; finite operands; the default
resolution's literal and the largest integer. -/
theorem witness_RoundingIsNearestEven :
    Representable 1 ∧ Representable (2 ^ 53 - 1) ∧ roundMag (2 ^ 53 + 1) 0 = 2 ^ 53 ∧
    roundMag (2 ^ 53 + 3) 0 = 2 ^ 53 + 4 ∧ (∃ p, numValue (.fin true 3) = some p) ∧ 0 < 10 ^ 4 ∧
    2 ^ 53 - 1 < 2 ^ 53 :=
  ⟨⟨1, 0, by decide, by decide⟩, ⟨2 ^ 53 - 1, 0, by decide, by decide⟩, by decide, by decide, ⟨_, rfl⟩, by decide,
    by decide⟩

/-- At 2^2, whose exact power is 4, the listed 4 - 2^-50, two binary64 below it and one unit away, is the answer, and the
listed 4 - 3·2^-51 is not. -/
theorem test_power_deviation :
    fpow { defaultParams with powDev := [⟨0x4000000000000000#64, 2, 0x400FFFFFFFFFFFFE#64⟩] }
      (numOfBits 0x4000000000000000#64) 2 = numOfBits 0x400FFFFFFFFFFFFE#64 ∧
    fpow { defaultParams with powDev := [⟨0x4000000000000000#64, 2, 0x400FFFFFFFFFFFFD#64⟩] }
      (numOfBits 0x4000000000000000#64) 2 = numOfBits 0x4010000000000000#64 ∧
    fpow defaultParams (numOfBits 0xC000000000000000#64) 3 = numOfBits 0xC020000000000000#64 ∧
    fpow defaultParams (numOfBits 0xFFEFFFFFFFFFFFFF#64) 3 = .inf true := by decide +kernel

/-- A finite operand, and a listed answer that is one whole unit from the exact power. -/
theorem witness_PowerIsWithinOneUlp :
    (2 : Nat) ∈ [2, 3, 4] ∧ numValue (.fin false (1 * 2 ^ (1074 + 1))) = some 2 ∧
    numOfBits 0x400FFFFFFFFFFFFE#64 = .fin false ((2 ^ 52 - 1) * 2 ^ 1024) ∧
    cappedValue (.fin false ((2 ^ 52 - 1) * 2 ^ 1024)) = some (4 - 1 / 2 ^ 50) ∧
    WithinUlp (4 - 1 / 2 ^ 50) (2 ^ 2) := by
  refine ⟨by decide, ?_, by decide +kernel, ?_, .inr ⟨2, ?_, ?_⟩⟩
  · rw [value_fin, value_pow]; norm_num
  · rw [cappedValue, value_fin, Nat.cast_mul, Nat.cast_pow, show (1074 : Nat) = 1024 + 50 from rfl, pow_add,
      Nat.cast_ofNat, ← div_div, mul_div_assoc, div_self (by positivity)]
    norm_num
    simp
  · norm_num
  · norm_num [abs_of_nonpos]

/-- The largest finite magnitude, and a word that is no NaN. -/
theorem witness_NumberBitsRoundTrip :
    Representable ((2 ^ 53 - 1) * 2 ^ 2045) ∧ (2 ^ 53 - 1) * 2 ^ 2045 < overflowMag ∧
    numOfBits 0x7FEFFFFFFFFFFFFF#64 ≠ .nan :=
  ⟨⟨2 ^ 53 - 1, 2045, rfl, by decide⟩, by decide +kernel, by decide +kernel⟩

/-- Each verdict at its boundary: 99, 100, 10000, 10001, and both ladders' ends. -/
theorem witness_verdicts :
    LowerEnd .one .ms100 99#16 ∧ ¬LowerEnd .one .ms100 100#16 ∧ ¬UpperEnd .one .ms100 10000#16 ∧
    UpperEnd .one .ms100 10001#16 ∧ ¬LowerEnd .two .ms800 0#16 ∧ ¬UpperEnd .eighth .ms25 0xFFFF#16 := by
  unfold LowerEnd UpperEnd; decide

/-- Both ends of both ladders, and a step inside each. -/
theorem witness_StepPrimitives :
    { resetDevice with gain := .two }.gain = .two ∧ { resetDevice with it := .ms25 }.it = .ms25 ∧
    (resetDevice.gain, Gain.two) ∈ [(Gain.eighth, Gain.quarter), (.quarter, .one), (.one, .two)] ∧
    (resetDevice.gain, Gain.quarter) ∈ [(Gain.quarter, Gain.eighth), (.one, .quarter), (.two, .one)] := by decide

/-- An adjustment in each direction from the reset setting. -/
theorem witness_CalibrateAdjusts :
    LowerEnd .one .ms100 99#16 ∧ lowerStep .one .ms100 = some (.two, .ms100) ∧
    UpperEnd .one .ms100 10001#16 ∧ upperStep .one .ms100 = some (.quarter, .ms100) ∧
    UpperEnd .two .ms800 10001#16 ∧ upperStep .two .ms800 = some (.two, .ms400) := by
  unfold LowerEnd UpperEnd; decide

theorem witness_CalibrateEndsSweet :
    answerTo .calibrate (fresh [.ok 50#16, .ok 0#16, .ok 100#16]) = okOf 0#64 ∧
    (nextOf (exec .calibrate (fresh [.ok 50#16, .ok 0#16, .ok 100#16]))).map (fun t => t.responses.length) = some 1 := by
  decide

/-- Seventeen answers of 0: eight adjustments, upward all. -/
theorem witness_CalibrateEndsInOneDirection :
    (fresh (List.replicate 17 (.ok 0#16))).answers.length = 17 ∧
    (∀ a ∈ (fresh (List.replicate 17 (.ok 0#16))).answers, ∃ w, a = .ok w) ∧
    (∀ k w, (fresh (List.replicate 17 (.ok 0#16))).answers[2 * k]? = some (.ok w) → w.toNat ≤ 10000) ∧
    (traceOf .calibrate (at' { resetDevice with gain := .eighth, it := .ms25 } (List.replicate 17 (.ok 0#16)))).map
      (·.length) = some 17 := by
  refine ⟨by decide, ?_, ?_, by decide⟩
  · intro a ha
    exact ⟨0#16, List.eq_of_mem_replicate ha⟩
  · intro k w h
    have hm : Answer.ok w ∈ List.replicate 17 (Answer.ok 0#16) := List.mem_of_getElem? h
    have he := List.eq_of_mem_replicate hm
    cases he
    decide

theorem witness_CalibrateNeedNotEnd :
    (fresh (alternatingAnswers 2)).dev.gain = .one ∧ (fresh (alternatingAnswers 2)).dev.it = .ms100 ∧
    (alternatingAnswers 2).length = 8 := by decide

/-- Enabled and disabled; each of the four codes of the event field. -/
theorem witness_PollEvent :
    resetDevice.intEn = false ∧ busyDevice.intEn = true ∧
    [ThresholdEvent.evNone, .evHigh, .evLow, .evBoth][((0x3FFF#16 : Word) >>> 14).toNat]? = some .evNone ∧
    [ThresholdEvent.evNone, .evHigh, .evLow, .evBoth][((0xC000#16 : Word) >>> 14).toNat]? = some .evBoth := by
  decide

/-- A row outstanding, and the same row not outstanding; the rows as they stand inside SET.POWER, SAMPLE and CALIBRATE. -/
theorem witness_bus_rows :
    outstandingFor (.busAls 7#16) = some (.waiting (.read .als) (.sampleAls false), 7#16) ∧
    outstandingFor (.busConf 1#2 0#4 0#2 0#1 0#1) = some (.waiting (.write .conf 0x0800#16) .respond, 0#16) ∧
    (∀ k, (fresh []).seq ≠ .waiting (.read .als) k) ∧
    (nextOf (exec (.setPower 5) (fresh []))).map (·.seq) =
      some (.waiting (.write .conf (confOfCodes 0#2 0#4 0#2 0#1 1#1)) (.powerSaving false .m1)) ∧
    (nextOf (exec .calibrate (fresh [.ok 50#16]))).map (·.seq) =
      some (.waiting (.write .conf (confOfCodes 1#2 0#4 0#2 0#1 0#1)) .calibrateAdjusting) ∧
    (nextOf (exec .calibrate (fresh []))).map (·.seq) = some (.waiting (.read .als) .calibrateSampling) ∧
    (nextOf (exec (.sample true true) (fresh []))).map (·.seq) = some (.waiting (.read .als) (.sampleAls true)) ∧
    (nextOf (exec (.sample true true) (fresh [.ok 7#16]))).map (·.seq) =
      some (.waiting (.read .white) (.sampleWhite true)) :=
  ⟨by decide, by decide, fun _ h => (nomatch h), by decide, by decide, by decide, by decide, by decide⟩

/-- A reachable waiting state meets the invariant and is stepped: SET.POWER between its two writes. -/
def betweenWrites : State :=
  { at' { resetDevice with sd := true } [.ok 0#16] with
    seq := .waiting (.write .conf 0x0001#16) (.powerSaving true .m3), sensor := [(0, 0#16), (3, 0#16)] }

theorem witness_invariants :
    betweenWrites.inv = true ∧ (nextOf (step betweenWrites)).map (·.seq) = some (.waiting (.write .psm 0x0005#16) .respond) ∧
    betweenWrites.resetIn = false := by decide

theorem witness_ShadowAgreementIsKept : betweenWrites.shadowAgrees := by
  intro reg w h hw
  revert h hw
  cases reg <;> simp [betweenWrites, State.awaitsWriteOf, State.sensorHolds, sensorRead, regKey, regCode, at']
  intro h
  subst h
  decide

/-- From reset: the four commands and their answers. -/
theorem witness_BootDutyEstablishesAgreement :
    State.reset.seq = .idle ∧ State.reset.dev.sd = false ∧ State.reset.dev.psmEn = false ∧
    decode (.command 0x240000000000000001#72) = .ok (.setSd true) ∧
    decode (.command 0x260000000000000000#72) = .ok (.setPsmen false) := by decide

/-- CALIBRATE whose answers run out after one. -/
theorem witness_LateAnswersChangeNothing :
    (nextOf (exec .calibrate (fresh [.ok 50#16]))).map (·.seq) =
      some (.waiting (.write .conf 0x0800#16) .calibrateAdjusting) := by decide

/-- A field an operation may write and one it may not; a transaction likewise. -/
theorem witness_OnlyNamedOperations :
    mayWrite (.setPower 5) .sd = true ∧ mayWrite (.setPower 5) .gain = false ∧
    mayIssue .pollEvent (.read .int (.ok 0#16)) = true ∧ mayIssue .pollEvent (.read .als (.ok 0#16)) = false ∧
    (nextOf (exec (.setPower 5) (fresh [.ok 0#16]))).isSome = true := by decide

end Sys2Proof.Tests
end

/-! The register codec (40_codec_ops, R100 to R118): what each of its 21 operations answers as one function of the
parameters, S and the operand, that `exec` answers it from every idle state, and the seven statements on the family. -/

namespace Sys2Proof.Proofs
open Sys2Proof Sys2Proof.Machine Sys2Proof.Laws

/-! ### Fields (30_encoding R61 to R63) -/

theorem fieldMask_toNat {f : Machine.Field} (hf : f.width ≤ 16) : (fieldMask f).toNat = 2 ^ f.width - 1 := by
  have hpow : 2 ^ f.width ≤ 2 ^ 16 := Nat.pow_le_pow_right (by decide) hf
  have hpos := Nat.two_pow_pos f.width
  rw [fieldMask, BitVec.toNat_ofNat, Nat.mod_eq_of_lt (by omega)]

/-- A code as wide as its field loses nothing to the field's mask. -/
theorem encodeField_eq_shiftLeft {n : Nat} (hn : n ≤ 16) (offset : Nat) (code : BitVec n) :
    encodeField ⟨offset, n⟩ code = code.setWidth 16 <<< offset := by
  have hlt : code.toNat < 2 ^ 16 := code.isLt.trans_le (Nat.pow_le_pow_right (by decide) hn)
  have hmasked : code.setWidth 16 &&& fieldMask ⟨offset, n⟩ = code.setWidth 16 := by
    apply BitVec.eq_of_toNat_eq
    rw [BitVec.toNat_and, fieldMask_toNat hn, BitVec.toNat_setWidth, Nat.mod_eq_of_lt hlt,
      Nat.and_two_pow_sub_one_of_lt_two_pow code.isLt]
  rw [encodeField, hmasked]

/-- The code read from a field is the field's own bits of the word. -/
theorem fieldCode_eq_extract {f : Machine.Field} (hf : f.width ≤ 16) (w : Word) :
    fieldCode f w = w.extractLsb' f.offset f.width := by
  apply BitVec.eq_of_toNat_eq
  rw [fieldCode, BitVec.toNat_setWidth, BitVec.toNat_and, fieldMask_toNat hf, Nat.and_two_pow_sub_one_eq_mod,
    Nat.mod_mod, BitVec.toNat_ushiftRight, BitVec.extractLsb'_toNat]

/-- A one-bit field is read as its bit. -/
theorem decodeFlag_eq_getLsbD (offset : Nat) (w : Word) : decodeFlag ⟨offset, 1⟩ w = w.getLsbD offset := by
  have hcode : fieldCode ⟨offset, 1⟩ w = BitVec.ofBool (w.getLsbD offset) := by
    rw [fieldCode_eq_extract (f := ⟨offset, 1⟩) (show 1 ≤ 16 by decide)]
    apply BitVec.eq_of_getLsbD_eq
    intro k hk
    obtain rfl : k = 0 := Nat.lt_one_iff.mp hk
    simp
  rw [decodeFlag, hcode]
  cases w.getLsbD offset <;> rfl

/-! ### Code tables (30_encoding R64) -/

section CodeTables
variable {α : Type} {n : Nat} {table : α → BitVec n} {values : List α}

theorem valueOfCode_spec {code : BitVec n} {v : α} (h : valueOfCode table values code = some v) : table v = code := by
  simpa using List.find?_some h

theorem valueOfCode_eq_none_iff {code : BitVec n} :
    valueOfCode table values code = none ↔ ∀ v ∈ values, table v ≠ code := by
  simp [valueOfCode]

/-- Where no two values share a code, a code is read as the value it is the code of. -/
theorem valueOfCode_table (hinj : (values.map table).Nodup) {v : α} (hv : v ∈ values) :
    valueOfCode table values (table v) = some v := by
  cases hfound : valueOfCode table values (table v) with
  | none => exact absurd rfl (valueOfCode_eq_none_iff.mp hfound v hv)
  | some u =>
    exact congrArg some (List.inj_on_of_nodup_map hinj (List.mem_of_find?_eq_some hfound) hv (valueOfCode_spec hfound))

/-- As many values as there are codes, and no code shared: every code has a value. -/
theorem exists_valueOfCode (hinj : (values.map table).Nodup) (hlen : values.length = 2 ^ n) (code : BitVec n) :
    ∃ v, valueOfCode table values code = some v := by
  have hperm : ((values.map table).map BitVec.toNat).Perm (List.range (2 ^ n)) := by
    have hnodup : ((values.map table).map BitVec.toNat).Nodup := hinj.map (fun _ _ => BitVec.eq_of_toNat_eq)
    have hsub : (values.map table).map BitVec.toNat ⊆ List.range (2 ^ n) := by
      intro k hk
      obtain ⟨c, -, rfl⟩ := List.mem_map.mp hk
      exact List.mem_range.mpr c.isLt
    exact (List.subperm_of_subset hnodup hsub).perm_of_length_le (by simp [hlen])
  have hmem : code.toNat ∈ (values.map table).map BitVec.toNat := hperm.mem_iff.mpr (List.mem_range.mpr code.isLt)
  obtain ⟨c, hc, hcode⟩ := List.mem_map.mp hmem
  obtain ⟨v, hv, rfl⟩ := List.mem_map.mp hc
  exact ⟨v, BitVec.eq_of_toNat_eq hcode ▸ valueOfCode_table hinj hv⟩

end CodeTables

/-! ### Results (30_encoding R83) -/

/-- Form pk is the register's command code above the field's bits. -/
theorem resultPacked_eq_packed (reg : SensorReg) (bits : Word) :
    resultPacked reg bits = packed (regCode reg) bits := by
  apply BitVec.eq_of_toNat_eq
  have hlt : (regCode reg ++ bits).toNat < 2 ^ 24 := (regCode reg ++ bits).isLt
  have hcode : (0#40 ++ regCode reg).toNat = (regCode reg).toNat := by cases reg <;> rfl
  calc (resultPacked reg bits).toNat
      = (regCode reg ++ bits).toNat := by
        rw [resultPacked, BitVec.toNat_setWidth, Nat.mod_eq_of_lt (by omega)]
    _ = (regCode reg).toNat <<< 16 ||| bits.toNat := BitVec.toNat_append (regCode reg) bits
    _ = (0#40 ++ regCode reg).toNat <<< 16 ||| bits.toNat := by rw [hcode]
    _ = (packed (regCode reg) bits).toNat := (BitVec.toNat_append (0#40 ++ regCode reg) bits).symm

theorem resultBool_eq_ite (b : Bool) : resultBool b = if b then 1#64 else 0#64 := by
  cases b <;> rfl

theorem resultGain_eq_gainDouble (g : Gain) : resultGain g = gainDouble g := by
  cases g <;> decide +kernel

theorem resultWhole_itMillis (t : IntegrationTime) : resultWhole (itMillis t) = itDouble t := by
  cases t <;> decide +kernel

theorem resultWhole_persCount (c : Persistence) : resultWhole (persCount c) = persDouble c := by
  cases c <;> decide +kernel

theorem resultWord_truncate16 (n : Int) : resultWord (truncate16 n) = BitVec.ofNat 64 (n % 65536).toNat := by
  apply BitVec.eq_of_toNat_eq
  simp [resultWord, truncate16, BitVec.toNat_ofInt]

/-- The event's own code is the two bits of its field. -/
theorem eventCode_decodeEvent (w : Word) : eventCode (decodeEvent w) = w.extractLsb' 14 2 := by
  have hlow : (w.extractLsb' 14 2).getLsbD 0 = w.getLsbD 14 := by simp
  have hhigh : (w.extractLsb' 14 2).getLsbD 1 = w.getLsbD 15 := by simp
  rw [decodeEvent, ← hlow, ← hhigh]
  generalize w.extractLsb' 14 2 = field
  revert field
  decide

/-- Bit 15 is the low threshold's. -/
theorem decodeEvent_low_iff (w : Word) :
    decodeEvent w = .evLow ∨ decodeEvent w = .evBoth ↔ w.getLsbD 15 = true := by
  rw [decodeEvent]
  cases w.getLsbD 15 <;> cases w.getLsbD 14 <;> decide

/-- Bit 14 is the high threshold's. -/
theorem decodeEvent_high_iff (w : Word) :
    decodeEvent w = .evHigh ∨ decodeEvent w = .evBoth ↔ w.getLsbD 14 = true := by
  rw [decodeEvent]
  cases w.getLsbD 15 <;> cases w.getLsbD 14 <;> decide

theorem resultEvent_decodeEvent (w : Word) : resultEvent (decodeEvent w) = (w >>> 14).setWidth 64 := by
  have hw := w.isLt
  apply BitVec.eq_of_toNat_eq
  rw [resultEvent, eventCode_decodeEvent]
  simp only [BitVec.toNat_setWidth, BitVec.extractLsb'_toNat, BitVec.toNat_ushiftRight, Nat.shiftRight_eq_div_pow]
  omega

/-! ### Operands (30_encoding R70, R82) -/

theorem psmOfInt_psmNumber (m : PowerSavingMode) : psmOfInt (psmNumber m) = some m := by
  cases m <;> rfl

theorem psmOfInt_eq_none {n : Int} (h : n ∉ [1, 2, 3, 4]) : psmOfInt n = none := by
  rw [psmOfInt, List.find?_eq_none]
  intro m _ hm
  have hn : n = psmNumber m := of_decide_eq_true hm
  subst hn
  cases m <;> exact h (by decide)

/-! ### The encodings (30_encoding R80, R84) -/

/-- A command word is decoded by its own `op` and `arg`. -/
theorem decode_commandWord (op : BitVec 8) (a : Arg) : decode (.command (commandWord op a)) = decodeOp op a := by
  rw [decode, decodeCommand, commandOp_commandWord, commandArg_commandWord]

/-- A form W command of a word is decoded to its instruction of that word. -/
theorem decode_commandWord_argW {op : BitVec 8} {k : Word → Instr} (w : Word)
    (hop : decodeOp op (argW w) = formW op (argW w) k) :
    decode (.command (commandWord op (w.setWidth 64))) = .ok (k w) :=
  (decode_commandWord op _).trans (hop.trans (formW_argW w k))

/-! ### What each codec operation answers -/

/-- Form pk of a gain (40_codec_ops R101). -/
def packedGain (p : Params) (g : Gain) : Arg := packed 0x00#8 ((gainCode p g).setWidth 16 <<< 11)

/-- Form pk of an integration time (40_codec_ops R102). -/
def packedIt (p : Params) (t : IntegrationTime) : Arg := packed 0x00#8 ((itCode p t).setWidth 16 <<< 6)

/-- Form pk of a persistence (40_codec_ops R103). -/
def packedPers (p : Params) (c : Persistence) : Arg := packed 0x00#8 ((persCode p c).setWidth 16 <<< 4)

/-- Form pk of a power-saving mode (40_codec_ops R106). -/
def packedPsm (p : Params) (m : PowerSavingMode) : Arg := packed 0x03#8 ((psmCode p m).setWidth 16 <<< 1)

/-- The result of a codec operation by the parameters, S and the operand, as R101 to R118 give it; none is
InvalidValue. `started_codec` ties it to the model. -/
def codecResult (p : Params) (d : DeviceState) : Instr → Option Arg
  | .packGainE k => (gainAt k).map (packedGain p)
  | .packGainF x => (matchGain x).map (packedGain p)
  | .packItE k => (itAt k).map (packedIt p)
  | .packItF x => (matchIt x).map (packedIt p)
  | .packPersE k => (persAt k).map (packedPers p)
  | .packPersF x => (matchPers x).map (packedPers p)
  | .packInten b => some (packed 0x00#8 (if b then 0x0002#16 else 0x0000#16))
  | .packSd b => some (packed 0x00#8 (if b then 0x0001#16 else 0x0000#16))
  | .packPsm n => (psmOfInt n).map (packedPsm p)
  | .packPsmen b => some (packed 0x03#8 (if b then 0x0001#16 else 0x0000#16))
  | .packThr n => some (BitVec.ofNat 64 (n % 65536).toNat)
  | .unpackGain w => (decodeGain p w).map gainDouble
  | .unpackIt w => (decodeIt p w).map itDouble
  | .unpackPers w => (decodePers p w).map persDouble
  | .unpackInten w => some (if w.getLsbD 1 then 1#64 else 0#64)
  | .unpackSd w => some (if w.getLsbD 0 then 1#64 else 0#64)
  | .unpackPsm w => (decodePsm p w).map fun m => BitVec.ofNat 64 (psmNumber m)
  | .unpackPsmen w => some (if w.getLsbD 0 then 1#64 else 0#64)
  | .unpackEvent w => some ((w >>> 14).setWidth 64)
  | .confWord => some ((confLayout p d).setWidth 64)
  | .psmWord => some ((psmLayout p d).setWidth 64)
  | _ => none

/-- OK with the result, or INVALID_VALUE with 0. -/
def codecResponse : Option Arg → Response
  | some a => ⟨.ok, a⟩
  | none => ⟨.invalidValue, 0#64⟩

theorem codecResponse_status (o : Option Arg) :
    (codecResponse o).status = .ok ∨ (codecResponse o).status = .invalidValue := by
  cases o with
  | some a => exact .inl rfl
  | none => exact .inr rfl

/-- An operation that answers a function of its validated operand, or InvalidValue. -/
theorem withValue_eq_respond {α : Type} (o : Option α) {k : α → State → State} {f : α → Arg} {s : State}
    (h : ∀ v, k v s = s.finish (f v)) : withValue o k s = s.respond (codecResponse (o.map f)) := by
  cases o with
  | some v => exact h v
  | none => rfl

/-- The same where the operation's result is given as a function `r` of the operand. -/
theorem withValue_finish_eq_respond {α : Type} (o : Option α) {r f : α → Arg} (s : State) (h : ∀ v, r v = f v) :
    withValue o (fun v s => s.finish (r v)) s = s.respond (codecResponse (o.map f)) :=
  withValue_eq_respond o fun v => congrArg s.finish (h v)

theorem packGain_eq_finish (g : Gain) (s : State) : packGain g s = s.finish (packedGain s.cfg g) := by
  rw [packGain, resultPacked_eq_packed, fieldGain, encodeField_eq_shiftLeft (by decide)]
  rfl

theorem packIt_eq_finish (t : IntegrationTime) (s : State) : packIt t s = s.finish (packedIt s.cfg t) := by
  rw [packIt, resultPacked_eq_packed, fieldIt, encodeField_eq_shiftLeft (by decide)]
  rfl

theorem packPers_eq_finish (c : Persistence) (s : State) : packPers c s = s.finish (packedPers s.cfg c) := by
  rw [packPers, resultPacked_eq_packed, fieldPers, encodeField_eq_shiftLeft (by decide)]
  rfl

theorem packPsm_eq_finish (m : PowerSavingMode) (s : State) : packPsm m s = s.finish (packedPsm s.cfg m) := by
  rw [packPsm, resultPacked_eq_packed, fieldPsm, encodeField_eq_shiftLeft (by decide)]
  rfl

/-- A packed flag is its bit, when set, at its place in the register. -/
theorem packFlag_eq_finish (reg : SensorReg) (offset : Nat) (b : Bool) (s : State) :
    packFlag reg ⟨offset, 1⟩ b s = s.finish (packed (regCode reg) (if b then 1#16 <<< offset else 0#16)) := by
  rw [packFlag, resultPacked_eq_packed, encodeField_eq_shiftLeft (by decide)]
  cases b with
  | true => rfl
  | false =>
    have hzero : (boolCode false).setWidth 16 = 0#16 := rfl
    rw [hzero, BitVec.zero_shiftLeft]
    rfl

theorem unpackFlag_eq_finish (offset : Nat) (w : Word) (s : State) :
    unpackFlag ⟨offset, 1⟩ w s = s.finish (if w.getLsbD offset then 1#64 else 0#64) := by
  rw [unpackFlag, decodeFlag_eq_getLsbD, resultBool_eq_ite]

/-- Each codec operation, from any state, only answers, and answers `codecResult`. -/
theorem started_codec {i : Instr} (hi : isCodec i = true) (s : State) :
    started i s = s.respond (codecResponse (codecResult s.cfg s.dev i)) := by
  cases i with
  | packGainE _ => exact withValue_eq_respond _ fun g => packGain_eq_finish g s
  | packGainF _ => exact withValue_eq_respond _ fun g => packGain_eq_finish g s
  | packItE _ => exact withValue_eq_respond _ fun t => packIt_eq_finish t s
  | packItF _ => exact withValue_eq_respond _ fun t => packIt_eq_finish t s
  | packPersE _ => exact withValue_eq_respond _ fun c => packPers_eq_finish c s
  | packPersF _ => exact withValue_eq_respond _ fun c => packPers_eq_finish c s
  | packInten b => exact packFlag_eq_finish .conf 1 b s
  | packSd b => exact packFlag_eq_finish .conf 0 b s
  | packPsm _ => exact withValue_eq_respond _ fun m => packPsm_eq_finish m s
  | packPsmen b => exact packFlag_eq_finish .psm 0 b s
  | packThr n => exact congrArg s.finish (resultWord_truncate16 n)
  | unpackGain _ => exact withValue_finish_eq_respond _ s resultGain_eq_gainDouble
  | unpackIt _ => exact withValue_finish_eq_respond _ s resultWhole_itMillis
  | unpackPers _ => exact withValue_finish_eq_respond _ s resultWhole_persCount
  | unpackInten w => exact unpackFlag_eq_finish 1 w s
  | unpackSd w => exact unpackFlag_eq_finish 0 w s
  | unpackPsm _ => exact withValue_finish_eq_respond _ s fun _ => rfl
  | unpackPsmen w => exact unpackFlag_eq_finish 0 w s
  | unpackEvent w => exact congrArg s.finish (resultEvent_decodeEvent w)
  | confWord => exact congrArg (fun w => s.finish (resultWord w)) (confImage_eq_layout s.cfg s.dev)
  | psmWord => exact congrArg (fun w => s.finish (resultWord w)) (psmImage_eq_layout s.cfg s.dev)
  | _ => exact absurd hi Bool.false_ne_true

theorem isBusRow_of_isCodec {i : Instr} (hi : isCodec i = true) : isBusRow i = false := by
  cases i with
  | busConf | busThrHi | busThrLo | busPsm | busAls | busWhite | busInt => exact absurd hi Bool.false_ne_true
  | _ => rfl

/-- From every idle state a codec operation gives one response and changes nothing else. -/
theorem exec_codec {i : Instr} (hi : isCodec i = true) {s : State} (hs : s.seq = .idle) :
    exec i s = .next { s with responses := s.responses ++ [codecResponse (codecResult s.cfg s.dev i)] } := by
  rw [exec_idle i (isBusRow_of_isCodec hi) hs, started_codec hi, drive_respond, respond_of_idle s _ hs]

theorem exec_codec_ok {i : Instr} {a : Arg} (hi : isCodec i = true) {s : State} (hs : s.seq = .idle)
    (h : codecResult s.cfg s.dev i = some a) : exec i s = .next (s.answered .ok a) := by
  rw [exec_codec hi hs, h]
  rfl

theorem exec_codec_invalid {i : Instr} (hi : isCodec i = true) {s : State} (hs : s.seq = .idle)
    (h : codecResult s.cfg s.dev i = none) : exec i s = .next (s.answered .invalidValue 0#64) := by
  rw [exec_codec hi hs, h]
  rfl

/-- Only CONF.WORD and PSM.WORD look at S. -/
theorem codecResult_dev_irrelevant {i : Instr} (hi : i ≠ .confWord ∧ i ≠ .psmWord) (p : Params)
    (d d' : DeviceState) : codecResult p d i = codecResult p d' i := by
  obtain ⟨hconf, hpsm⟩ := hi
  cases i with
  | confWord => exact absurd rfl hconf
  | psmWord => exact absurd rfl hpsm
  | _ => rfl

/-! ### Fields under admissible parameters (00_scope section 4) -/

/-- No table gives two values one code. -/
theorem tables_nodup {p : Params} (h : paramsOk p = true) :
    (gainLadder.map (gainCode p)).Nodup ∧ (itLadder.map (itCode p)).Nodup ∧
      (persLadder.map (persCode p)).Nodup ∧ (psmLadder.map (psmCode p)).Nodup := by
  simp only [paramsOk, Bool.and_eq_true, decide_eq_true_eq] at h
  tauto

theorem mem_itLadder (t : IntegrationTime) : t ∈ itLadder := by cases t <;> decide

section Decoding
variable {p : Params} (w : Word)

/-- A field whose table uses every code of its width always holds the code of a value. -/
theorem exists_value_of_field {α : Type} {f : Machine.Field} {table : α → BitVec f.width} {values : List α}
    (hf : f.width ≤ 16) (hinj : (values.map table).Nodup) (hlen : values.length = 2 ^ f.width) :
    ∃ v, table v = w.extractLsb' f.offset f.width ∧ valueOfCode table values (fieldCode f w) = some v := by
  obtain ⟨v, hv⟩ := exists_valueOfCode hinj hlen (fieldCode f w)
  exact ⟨v, (valueOfCode_spec hv).trans (fieldCode_eq_extract hf w), hv⟩

theorem exists_decodeGain (h : (gainLadder.map (gainCode p)).Nodup) :
    ∃ g, gainCode p g = w.extractLsb' 11 2 ∧ decodeGain p w = some g :=
  exists_value_of_field w (f := fieldGain) (by decide) h rfl

theorem exists_decodePers (h : (persLadder.map (persCode p)).Nodup) :
    ∃ c, persCode p c = w.extractLsb' 4 2 ∧ decodePers p w = some c :=
  exists_value_of_field w (f := fieldPers) (by decide) h rfl

theorem exists_decodePsm (h : (psmLadder.map (psmCode p)).Nodup) :
    ∃ m, psmCode p m = w.extractLsb' 1 2 ∧ decodePsm p w = some m :=
  exists_value_of_field w (f := fieldPsm) (by decide) h rfl

theorem decodeIt_eq_some (h : (itLadder.map (itCode p)).Nodup) {t : IntegrationTime}
    (ht : itCode p t = w.extractLsb' 6 4) : decodeIt p w = some t := by
  have hfield : fieldCode fieldIt w = itCode p t := (fieldCode_eq_extract (by decide) w).trans ht.symm
  rw [decodeIt, hfield]
  exact valueOfCode_table h (mem_itLadder t)

/-- Ten of the sixteen integration-time codes are of no enumerator (30_encoding R72 (b)). -/
theorem decodeIt_eq_none (h : ∀ t, itCode p t ≠ w.extractLsb' 6 4) : decodeIt p w = none :=
  valueOfCode_eq_none_iff.mpr fun t _ ht => h t (ht.trans (fieldCode_eq_extract (f := fieldIt) (by decide) w))

end Decoding

/-! ### The statements -/

/-- Settles O13: an index off its ladder, or a number that matches nothing, is InvalidValue; every other operand is
looked up in its table and shifted to its field. -/
theorem packEnumerators : Obligations.PackEnumerators := by
  intro s hs
  refine ⟨fun k hk => ⟨?_, ?_, ?_⟩,
    fun x => ⟨decode_commandWord _ x, decode_commandWord _ x, decode_commandWord _ x⟩,
    fun g => ⟨fun k hk => ?_, fun x hx => ?_⟩, fun k hk => ?_, fun x hx => ?_,
    fun t => ⟨fun k hk => ?_, fun x hx => ?_⟩, fun k hk => ?_, fun x hx => ?_,
    fun c => ⟨fun k hk => ?_, fun x hx => ?_⟩, fun k hk => ?_, fun x hx => ?_⟩
  · exact (decode_commandWord _ _).trans (formE_argNat _ hk)
  · exact (decode_commandWord _ _).trans (formE_argNat _ hk)
  · exact (decode_commandWord _ _).trans (formE_argNat _ hk)
  · exact exec_codec_ok rfl hs (congrArg (Option.map (packedGain s.cfg)) hk)
  · exact exec_codec_ok rfl hs (congrArg (Option.map (packedGain s.cfg)) hx)
  · exact exec_codec_invalid rfl hs (congrArg (Option.map (packedGain s.cfg)) (List.getElem?_eq_none hk))
  · exact exec_codec_invalid rfl hs (congrArg (Option.map (packedGain s.cfg)) hx)
  · exact exec_codec_ok rfl hs (congrArg (Option.map (packedIt s.cfg)) hk)
  · exact exec_codec_ok rfl hs (congrArg (Option.map (packedIt s.cfg)) hx)
  · exact exec_codec_invalid rfl hs (congrArg (Option.map (packedIt s.cfg)) (List.getElem?_eq_none hk))
  · exact exec_codec_invalid rfl hs (congrArg (Option.map (packedIt s.cfg)) hx)
  · exact exec_codec_ok rfl hs (congrArg (Option.map (packedPers s.cfg)) hk)
  · exact exec_codec_ok rfl hs (congrArg (Option.map (packedPers s.cfg)) hx)
  · exact exec_codec_invalid rfl hs (congrArg (Option.map (packedPers s.cfg)) (List.getElem?_eq_none hk))
  · exact exec_codec_invalid rfl hs (congrArg (Option.map (packedPers s.cfg)) hx)

/-- Settles O14: the modes 1 to 4 are the numbers of the table's values, and no other integer is. -/
theorem packFlagsAndMode : Obligations.PackFlagsAndMode := by
  intro s hs
  refine ⟨fun b => ⟨?_, ?_, ?_, ?_, ?_, ?_⟩, fun a => decode_commandWord _ a, fun m => ?_, fun n hn => ?_⟩
  · exact (decode_commandWord _ _).trans (formB_argB b _)
  · exact (decode_commandWord _ _).trans (formB_argB b _)
  · exact (decode_commandWord _ _).trans (formB_argB b _)
  · exact exec_codec_ok rfl hs rfl
  · exact exec_codec_ok rfl hs rfl
  · exact exec_codec_ok rfl hs rfl
  · exact exec_codec_ok rfl hs (congrArg (Option.map (packedPsm s.cfg)) (psmOfInt_psmNumber m))
  · exact exec_codec_invalid rfl hs (congrArg (Option.map (packedPsm s.cfg)) (psmOfInt_eq_none hn))

/-- Settles O15: `truncate16` is the floor modulus (`resultWord_truncate16`). -/
theorem packThreshold : Obligations.PackThreshold :=
  fun _ hs => ⟨fun a => decode_commandWord _ a, fun _ => exec_codec_ok rfl hs rfl⟩

/-- Settles O16: two-bit tables of four distinct codes leave no code undefined, the six integration times leave ten. -/
theorem unpackEnumerators : Obligations.UnpackEnumerators := by
  intro s w hs hp
  obtain ⟨hgain, hit, hpers, hpsm⟩ := tables_nodup hp
  obtain ⟨g, hg, hdecg⟩ := exists_decodeGain w hgain
  obtain ⟨c, hc, hdecc⟩ := exists_decodePers w hpers
  obtain ⟨m, hm, hdecm⟩ := exists_decodePsm w hpsm
  exact ⟨decode_commandWord_argW w rfl, decode_commandWord_argW w rfl, decode_commandWord_argW w rfl,
    decode_commandWord_argW w rfl,
    ⟨g, hg, exec_codec_ok rfl hs (congrArg (Option.map gainDouble) hdecg)⟩,
    fun t ht => exec_codec_ok rfl hs (congrArg (Option.map itDouble) (decodeIt_eq_some w hit ht)),
    fun ht => exec_codec_invalid rfl hs (congrArg (Option.map itDouble) (decodeIt_eq_none w ht)),
    ⟨c, hc, exec_codec_ok rfl hs (congrArg (Option.map persDouble) hdecc)⟩,
    ⟨m, hm, exec_codec_ok rfl hs (congrArg (Option.map _) hdecm)⟩⟩

/-- Settles O17: a one-bit field is its bit (`decodeFlag_eq_getLsbD`), an event's code its field
(`eventCode_decodeEvent`). -/
theorem unpackFlagsAndEvent : Obligations.UnpackFlagsAndEvent := by
  intro s w hs
  exact ⟨decode_commandWord_argW w rfl, decode_commandWord_argW w rfl, decode_commandWord_argW w rfl,
    decode_commandWord_argW w rfl, exec_codec_ok rfl hs rfl, exec_codec_ok rfl hs rfl, exec_codec_ok rfl hs rfl,
    exec_codec_ok rfl hs rfl, decodeEvent_low_iff w, decodeEvent_high_iff w⟩

/-- Settles O18: the images are the layouts of 30_encoding R60 (`confImage_eq_layout`, `psmImage_eq_layout`). -/
theorem wholeWords : Obligations.WholeWords :=
  ⟨decode_commandWord 0x11#8 argN, decode_commandWord 0x12#8 argN,
    fun _ hs => ⟨exec_codec_ok rfl hs rfl, exec_codec_ok rfl hs rfl⟩⟩

/-- Settles O21: the response is `codecResult`, which takes nothing from the state but the parameters and, for the two
whole words, S. -/
theorem codecFamily : Obligations.CodecFamily := by
  intro i s hi hs
  refine ⟨codecResponse (codecResult s.cfg s.dev i), codecResponse_status _, exec_codec hi hs, ?_⟩
  intro s' hs' hcfg hdev
  have hsame : codecResult s'.cfg s'.dev i = codecResult s.cfg s.dev i := by
    rw [hcfg]
    obtain hdev | hother := hdev
    · rw [hdev]
    · exact codecResult_dev_irrelevant hother _ _ _
  rw [exec_codec hi hs', hsame]

end Sys2Proof.Proofs


/-! The getters of the fields that always hold a value (41_device_state_ops R143 to R150): the power status (10_state
R25), the answer of an operation that issues no transaction, and the statement on the eight getters. -/

namespace Sys2Proof.Proofs
open Sys2Proof Sys2Proof.Machine Sys2Proof.Laws

/-! ### The power status (10_state R25) -/

/-- Shutdown comes first, whatever the power-saving flag and the stored mode. -/
theorem powerStatus_of_shutdown {d : DeviceState} (hsd : d.sd = true) : powerStatus d = .off := by
  simp [powerStatus, hsd]

theorem powerStatus_of_saving {d : DeviceState} (hsd : d.sd = false) (hen : d.psmEn = true) :
    powerStatus d = .save d.psm := by
  simp [powerStatus, hsd, hen]

theorem powerStatus_of_on {d : DeviceState} (hsd : d.sd = false) (hen : d.psmEn = false) :
    powerStatus d = .on := by
  simp [powerStatus, hsd, hen]

/-! ### Operations that only answer -/

/-- An operation that ends at once with a result gives the one response OK and changes nothing else of an idle block;
the transport's answers to come are not taken. -/
theorem exec_eq_answered_of_finish {i : Instr} {s : State} {r a : Arg} (hi : isBusRow i = false) (hs : s.seq = .idle)
    (hstart : started i s = s.finish r) (hr : r = a) : exec i s = .next (s.answered .ok a) := by
  rw [exec_idle i hi hs, hstart, drive_finish, finish_of_idle s r hs, hr]

/-- GET.POWER answers the code of the power status. -/
theorem exec_getPower {s : State} {p : PowerStatus} (hs : s.seq = .idle) (hp : powerStatus s.dev = p) :
    exec .getPower s = .next (s.answered .ok (resultPower p)) :=
  exec_eq_answered_of_finish rfl hs rfl (congrArg resultPower hp)

/-! ### The statement -/

/-- Settles O30: each getter ends at once with its field's value in the form of 30_encoding R83; GET.POWER goes by the
three cases of `powerStatus`. -/
theorem gettersAnswer : Obligations.GettersAnswer := by
  intro s hs
  refine ⟨?gain, ?it, ?pers, ?inten, ?sd, ?psm, ?psmen, ?powerOff, ?powerSave, ?powerOn,
    decode_commandWord 0x30#8 argN, decode_commandWord 0x31#8 argN, decode_commandWord 0x32#8 argN,
    decode_commandWord 0x33#8 argN, decode_commandWord 0x34#8 argN, decode_commandWord 0x35#8 argN,
    decode_commandWord 0x36#8 argN, decode_commandWord 0x37#8 argN⟩
  case gain => exact exec_eq_answered_of_finish rfl hs rfl (resultGain_eq_gainDouble s.dev.gain)
  case it => exact exec_eq_answered_of_finish rfl hs rfl (resultWhole_itMillis s.dev.it)
  case pers => exact exec_eq_answered_of_finish rfl hs rfl (resultWhole_persCount s.dev.pers)
  case inten => exact exec_eq_answered_of_finish rfl hs rfl (resultBool_eq_ite s.dev.intEn)
  case sd => exact exec_eq_answered_of_finish rfl hs rfl (resultBool_eq_ite s.dev.sd)
  case psm => exact exec_eq_answered_of_finish rfl hs rfl rfl
  case psmen => exact exec_eq_answered_of_finish rfl hs rfl (resultBool_eq_ite s.dev.psmEn)
  case powerOff => exact fun hsd => exec_getPower hs (powerStatus_of_shutdown hsd)
  case powerSave => exact fun hsd hen => exec_getPower hs (powerStatus_of_saving hsd hen)
  case powerOn => exact fun hsd hen => exec_getPower hs (powerStatus_of_on hsd hen)

end Sys2Proof.Proofs


/-! The single-field setters given twice (70_reset_and_hazards R261, R267): each setter as an update of one field of S,
that the update's value is in S however its write ends, and the statement on the second setter. -/

namespace Sys2Proof.Proofs
open Sys2Proof Sys2Proof.Machine Sys2Proof.Laws

/-! ### Updates of one field (41_device_state_ops R129) -/

/-- One `set_field`: whether S holds the value, S with the value stored, and the register written when it did not. What
was stored is held. -/
structure FieldUpdate where
  holds : DeviceState → Bool
  store : DeviceState → DeviceState
  reg : SensorReg
  holds_store : ∀ d, holds (store d) = true

/-- The update as an operation. `started_setter` ties it to the model's setters. -/
def FieldUpdate.run (u : FieldUpdate) (s : State) : State := s.setField (u.holds s.dev) (u.store s.dev) u.reg

def gainUpdate (g : Gain) : FieldUpdate where
  holds d := decide (d.gain = g)
  store d := { d with gain := g }
  reg := .conf
  holds_store _ := decide_eq_true rfl

def itUpdate (t : IntegrationTime) : FieldUpdate where
  holds d := decide (d.it = t)
  store d := { d with it := t }
  reg := .conf
  holds_store _ := decide_eq_true rfl

def persUpdate (c : Persistence) : FieldUpdate where
  holds d := decide (d.pers = c)
  store d := { d with pers := c }
  reg := .conf
  holds_store _ := decide_eq_true rfl

def intEnUpdate (b : Bool) : FieldUpdate where
  holds d := decide (d.intEn = b)
  store d := { d with intEn := b }
  reg := .conf
  holds_store _ := decide_eq_true rfl

def sdUpdate (b : Bool) : FieldUpdate where
  holds d := decide (d.sd = b)
  store d := { d with sd := b }
  reg := .conf
  holds_store _ := decide_eq_true rfl

def psmUpdate (m : PowerSavingMode) : FieldUpdate where
  holds d := decide (d.psm = m)
  store d := { d with psm := m }
  reg := .psm
  holds_store _ := decide_eq_true rfl

def psmEnUpdate (b : Bool) : FieldUpdate where
  holds d := decide (d.psmEn = b)
  store d := { d with psmEn := b }
  reg := .psm
  holds_store _ := decide_eq_true rfl

def thrHiUpdate (w : Word) : FieldUpdate where
  holds d := decide (d.thrHi = some w)
  store d := { d with thrHi := some w }
  reg := .thrHi
  holds_store _ := decide_eq_true rfl

def thrLoUpdate (w : Word) : FieldUpdate where
  holds d := decide (d.thrLo = some w)
  store d := { d with thrLo := some w }
  reg := .thrLo
  holds_store _ := decide_eq_true rfl

/-- The update a setter asks for (41_device_state_ops R130 to R136, R138, R139); none is InvalidValue. It is a function
of the instruction alone, so the second setter asks for what the first one did. -/
def setterUpdate : Instr → Option FieldUpdate
  | .setGainE k => (gainAt k).map gainUpdate
  | .setGainF x => (matchGain x).map gainUpdate
  | .setItE k => (itAt k).map itUpdate
  | .setItF x => (matchIt x).map itUpdate
  | .setPersE k => (persAt k).map persUpdate
  | .setPersF x => (matchPers x).map persUpdate
  | .setInten b => some (intEnUpdate b)
  | .setSd b => some (sdUpdate b)
  | .setPsm n => (psmOfInt n).map psmUpdate
  | .setPsmen b => some (psmEnUpdate b)
  | .setThrh n => some (thrHiUpdate (truncate16 n))
  | .setThrl n => some (thrLoUpdate (truncate16 n))
  | _ => none

/-- A continuation that runs its value's update. -/
theorem withValue_eq_run {α : Type} (o : Option α) {k : α → State → State} {f : α → FieldUpdate} (s : State)
    (h : ∀ v, k v s = (f v).run s) : withValue o k s = withValue (o.map f) FieldUpdate.run s := by
  cases o with
  | some v => exact h v
  | none => rfl

/-- Each setter, from any state, runs its update or ends with InvalidValue. -/
theorem started_setter {i : Instr} (hi : isSetter i = true) (s : State) :
    started i s = withValue (setterUpdate i) FieldUpdate.run s := by
  cases i with
  | setGainE _ | setGainF _ | setItE _ | setItF _ | setPersE _ | setPersF _ | setPsm _ =>
    exact withValue_eq_run _ s fun _ => rfl
  | setInten _ | setSd _ | setPsmen _ | setThrh _ | setThrl _ => rfl
  | _ => exact absurd hi Bool.false_ne_true

theorem isBusRow_of_isSetter {i : Instr} (hi : isSetter i = true) : isBusRow i = false := by
  cases i with
  | busConf | busThrHi | busThrLo | busPsm | busAls | busWhite | busInt => exact absurd hi Bool.false_ne_true
  | _ => rfl

/-- From every idle state a setter runs its update against the answers. -/
theorem exec_setter {i : Instr} (hi : isSetter i = true) {s : State} (hs : s.seq = .idle) :
    exec i s = .next (withValue (setterUpdate i) FieldUpdate.run s).drive := by
  rw [exec_idle i (isBusRow_of_isSetter hi) hs, started_setter hi]

/-! ### What an update leaves in S -/

/-- A transaction that only awaits its answer stores nothing after it, whether `ok`, `err` or no answer comes. -/
theorem drive_issue_respond_dev (s : State) (q : Request) : (s.issue q .respond).drive.dev = s.dev := by
  cases has : s.answers with
  | nil => rw [drive_issue_nil q .respond has, issue_dev]
  | cons a rest =>
    rw [drive_issue_cons q .respond has]
    cases a with
    | ok w => simp only [complete_respond, driveWith_idle rest (finish_seq _ _), finish_dev, record_dev, issue_dev]
    | err e => simp only [complete_err, driveWith_idle rest (raise_seq _ _), raise_dev, record_dev, issue_dev]

/-- A register's image written last leaves S as it is. -/
theorem drive_writeImage_respond_dev (s : State) (reg : SensorReg) : (s.writeImage reg .respond).drive.dev = s.dev := by
  obtain ⟨w, -, hw⟩ | ⟨-, hw⟩ := writeImage_cases s reg .respond
  · rw [hw, drive_issue_respond_dev]
  · rw [hw, drive_finish, finish_dev]

theorem run_of_holds {u : FieldUpdate} {s : State} (h : u.holds s.dev = true) : u.run s = s.finish resultNone := by
  rw [FieldUpdate.run, h, setField_unchanged]

theorem run_of_not_holds {u : FieldUpdate} {s : State} (h : u.holds s.dev = false) :
    u.run s = { s with dev := u.store s.dev }.writeImage u.reg .respond := by
  rw [FieldUpdate.run, h]
  rfl

/-- After an update S holds its value, also when the write failed: the value is stored before the write and a failed
write does not take it back (60_exceptions R222, decision D13). -/
theorem holds_drive_run (u : FieldUpdate) (s : State) : u.holds (u.run s).drive.dev = true := by
  cases h : u.holds s.dev with
  | true => rw [run_of_holds h, drive_finish, finish_dev, h]
  | false => rw [run_of_not_holds h, drive_writeImage_respond_dev, u.holds_store]

/-! ### The statement -/

/-- Settles O28: an operand that is no value is refused again, and a value that is one is held after the first setter
(`holds_drive_run`), so that the second one finds it unchanged. -/
theorem repeatedSetterIsSilent : Obligations.RepeatedSetterIsSilent := by
  intro i s t hi hs hexec ht
  rw [exec_setter hi hs] at hexec
  rw [exec_setter hi ht]
  cases hu : setterUpdate i with
  | none =>
    refine ⟨errorResponse .invalidValue, ?_⟩
    rw [withValue_none, drive_raise, State.raise, respond_of_idle t _ ht]
  | some u =>
    rw [hu, withValue_some] at hexec
    obtain rfl : (u.run s).drive = t := Host.Outcome.next.inj hexec
    refine ⟨⟨.ok, resultNone⟩, ?_⟩
    rw [withValue_some, run_of_holds (holds_drive_run u s), drive_finish, State.finish, respond_of_idle _ _ ht]

end Sys2Proof.Proofs

/-! The two ports' words (30_encoding R73, R80, R82, R84, R86): each argument form read back, the two round trips
between words and instructions, and the words that decode as those of the opcode table. -/

namespace Sys2Proof.Proofs
open Sys2Proof Sys2Proof.Machine Sys2Proof.Laws

/-! ### Decoding the word of an instruction -/

theorem decode_busRow (code : Code) (w : Word) : decode (.bus (busRow code w)) = decodeWord code w := by
  rw [decode, decodeBus, busRowCode_busRow, busRowWord_busRow]

section Encoded
variable {op : BitVec 8}

/-- A form E command whose index fits is decoded to its instruction. -/
theorem decode_command_argE {k : Nat} (c : Nat → Instr) (hop : ∀ a, decodeOp op a = formE op a c)
    (hk : fitsIndex k = true) : decode (.command (commandWord op (argNat k))) = .ok (c k) :=
  (decode_commandWord op _).trans ((hop _).trans (formE_argNat c (of_decide_eq_true hk)))

theorem decode_command_argP {k : Nat} (c : Nat → Instr) (hop : ∀ a, decodeOp op a = formP op a c)
    (hk : fitsPower k = true) : decode (.command (commandWord op (argNat k))) = .ok (c k) :=
  (decode_commandWord op _).trans ((hop _).trans (formP_argNat c (of_decide_eq_true hk)))

theorem decode_command_argI {n : Int} (c : Int → Instr) (hop : ∀ a, decodeOp op a = formI a c)
    (hn : fitsInt n = true) : decode (.command (commandWord op (argI n))) = .ok (c n) :=
  (decode_commandWord op _).trans ((hop _).trans (formI_argI n c hn))

theorem decode_command_argB (c : Bool → Instr) (hop : ∀ a, decodeOp op a = formB op a c) (b : Bool) :
    decode (.command (commandWord op (argB b))) = .ok (c b) :=
  (decode_commandWord op _).trans ((hop _).trans (formB_argB b c))

theorem decode_command_argS (c : Bool → Bool → Instr) (hop : ∀ a, decodeOp op a = formS op a c) (b b' : Bool) :
    decode (.command (commandWord op (argS b b'))) = .ok (c b b') :=
  (decode_commandWord op _).trans ((hop _).trans (formS_argS b b' c))

end Encoded

/-- Settles O9: each argument form gives its operand back, each bus word its fields. -/
theorem decodeOfEncode : Obligations.DecodeOfEncode := by
  intro i hwf
  cases i with
  | packGainE | packItE | packPersE | setGainE | setItE | setPersE => exact decode_command_argE _ (fun _ => rfl) hwf
  | setPower => exact decode_command_argP _ (fun _ => rfl) hwf
  | packPsm | packThr | setPsm | setThrh | setThrl => exact decode_command_argI _ (fun _ => rfl) hwf
  | packInten | packSd | packPsmen | setInten | setSd | setPsmen => exact decode_command_argB _ (fun _ => rfl) _
  | sample => exact decode_command_argS _ (fun _ => rfl) _ _
  | unpackGain | unpackIt | unpackPers | unpackInten | unpackSd | unpackPsm | unpackPsmen | unpackEvent | raw2lux =>
    exact decode_commandWord_argW _ rfl
  | busConf => exact (decode_busRow _ _).trans (decodeWord_confOfCodes _ _ _ _ _)
  | busPsm => exact (decode_busRow _ _).trans (decodeWord_psmOfCodes _ _)
  | busInt => exact (decode_busRow _ _).trans (decodeWord_intOfFields _ _)
  | busThrHi | busThrLo | busAls | busWhite => exact decode_busRow _ _
  | _ => exact decode_commandWord _ _

/-! ### The operation map by argument form (30_encoding R82, R84) -/

def opsN : List (BitVec 8) :=
  [0x11#8, 0x12#8, 0x30#8, 0x31#8, 0x32#8, 0x33#8, 0x34#8, 0x35#8, 0x36#8, 0x37#8, 0x38#8, 0x39#8, 0x3A#8, 0x3B#8,
    0x3C#8, 0x40#8, 0x41#8, 0x44#8, 0x45#8, 0x46#8, 0x47#8, 0x50#8, 0x51#8, 0x52#8, 0x53#8, 0x54#8, 0x55#8, 0x60#8]

def opsB : List (BitVec 8) := [0x04#8, 0x05#8, 0x07#8, 0x23#8, 0x24#8, 0x26#8]

def opsE : List (BitVec 8) := [0x01#8, 0x02#8, 0x03#8, 0x20#8, 0x21#8, 0x22#8]

def opsW : List (BitVec 8) := [0x09#8, 0x0A#8, 0x0B#8, 0x0C#8, 0x0D#8, 0x0E#8, 0x0F#8, 0x10#8, 0x43#8]

def opsI : List (BitVec 8) := [0x06#8, 0x08#8, 0x25#8, 0x28#8, 0x29#8]

def opsF : List (BitVec 8) := [0x42#8, 0x81#8, 0x82#8, 0x83#8, 0xA0#8, 0xA1#8, 0xA2#8]

/-- Every defined `op` with the number of low argument bits its form uses. -/
def opBits : List (BitVec 8 × Nat) :=
  opsN.map (·, 0) ++ opsB.map (·, 1) ++ [(0x2F#8, 2), (0x27#8, 3)] ++ opsE.map (·, 4) ++ opsW.map (·, 16) ++
    opsI.map (·, 64) ++ opsF.map (·, 64)

/-- What the decoder does with an `op` that uses the low `n` argument bits: an argument within them is an instruction
whose word it is, any other is refused. -/
def ReadsArg (op : BitVec 8) (n : Nat) : Prop :=
  ∀ a : Arg, (a.toNat < 2 ^ n → ∃ i, decodeOp op a = .ok i ∧ encode i = .command (commandWord op a) ∧ i.wf = true) ∧
    (¬a.toNat < 2 ^ n → ∃ e, decodeOp op a = .error e)

section Forms
variable {op : BitVec 8}

theorem argNat_toNat (a : Arg) : argNat a.toNat = a := by simp [argNat]

theorem readsArg_formN {i : Instr} (hop : ∀ a, decodeOp op a = formN op a i)
    (henc : encode i = .command (commandWord op argN)) (hwf : i.wf = true) : ReadsArg op 0 := by
  intro a
  rw [hop, formN]
  refine ⟨fun ha => ?_, fun ha => ⟨_, if_neg (by omega)⟩⟩
  have ha0 : a = argN := BitVec.eq_of_toNat_eq (Nat.lt_one_iff.mp ha)
  exact ⟨i, if_pos (Nat.lt_one_iff.mp ha), ha0 ▸ henc, hwf⟩

theorem readsArg_formB {c : Bool → Instr} (hop : ∀ a, decodeOp op a = formB op a c)
    (henc : ∀ b, encode (c b) = .command (commandWord op (argB b))) (hwf : ∀ b, (c b).wf = true) :
    ReadsArg op 1 := by
  intro a
  rw [hop, formB]
  refine ⟨fun ha => ⟨_, if_pos ha, ?_, hwf _⟩, fun ha => ⟨_, if_neg ha⟩⟩
  have hback : argB (a.getLsbD 0) = a := by
    have h01 : a = 0#64 ∨ a = 1#64 := by bv_omega
    rcases h01 with rfl | rfl <;> rfl
  rw [henc, hback]

theorem readsArg_formS {c : Bool → Bool → Instr} (hop : ∀ a, decodeOp op a = formS op a c)
    (henc : ∀ b b', encode (c b b') = .command (commandWord op (argS b b'))) (hwf : ∀ b b', (c b b').wf = true) :
    ReadsArg op 2 := by
  intro a
  rw [hop, formS]
  refine ⟨fun ha => ⟨_, if_pos ha, ?_, hwf _ _⟩, fun ha => ⟨_, if_neg ha⟩⟩
  have hback : argS (a.getLsbD 0) (a.getLsbD 1) = a := by
    have h03 : a = 0#64 ∨ a = 1#64 ∨ a = 2#64 ∨ a = 3#64 := by bv_omega
    rcases h03 with rfl | rfl | rfl | rfl <;> rfl
  rw [henc, hback]

theorem readsArg_formE {c : Nat → Instr} (hop : ∀ a, decodeOp op a = formE op a c)
    (henc : ∀ k, encode (c k) = .command (commandWord op (argNat k))) (hwf : ∀ k, (c k).wf = fitsIndex k) :
    ReadsArg op 4 := by
  intro a
  rw [hop, formE]
  exact ⟨fun ha => ⟨_, if_pos ha, by rw [henc, argNat_toNat], (hwf _).trans (decide_eq_true ha)⟩,
    fun ha => ⟨_, if_neg ha⟩⟩

theorem readsArg_formP {c : Nat → Instr} (hop : ∀ a, decodeOp op a = formP op a c)
    (henc : ∀ k, encode (c k) = .command (commandWord op (argNat k))) (hwf : ∀ k, (c k).wf = fitsPower k) :
    ReadsArg op 3 := by
  intro a
  rw [hop, formP]
  exact ⟨fun ha => ⟨_, if_pos ha, by rw [henc, argNat_toNat], (hwf _).trans (decide_eq_true ha)⟩,
    fun ha => ⟨_, if_neg ha⟩⟩

theorem readsArg_formW {c : Word → Instr} (hop : ∀ a, decodeOp op a = formW op a c)
    (henc : ∀ w, encode (c w) = .command (commandWord op (argW w))) (hwf : ∀ w, (c w).wf = true) :
    ReadsArg op 16 := by
  intro a
  rw [hop, formW]
  refine ⟨fun ha => ⟨_, if_pos ha, ?_, hwf _⟩, fun ha => ⟨_, if_neg ha⟩⟩
  have hback : argW (a.setWidth 16) = a := by
    apply BitVec.eq_of_toNat_eq
    simp only [argW, BitVec.toNat_setWidth]
    omega
  rw [henc, hback]

theorem readsArg_formI {c : Int → Instr} (hop : ∀ a, decodeOp op a = formI a c)
    (henc : ∀ n, encode (c n) = .command (commandWord op (argI n))) (hwf : ∀ n, (c n).wf = fitsInt n) :
    ReadsArg op 64 := by
  intro a
  rw [hop]
  refine ⟨fun _ => ⟨_, rfl, by rw [henc, argI, BitVec.ofInt_toInt], (hwf _).trans ?_⟩, fun ha => absurd a.isLt ha⟩
  have hlo := BitVec.le_toInt a
  have hhi := BitVec.toInt_lt (x := a)
  simp only [fitsInt, Bool.and_eq_true, decide_eq_true_eq]
  exact ⟨hlo, hhi⟩

theorem readsArg_formF {c : Arg → Instr} (hop : ∀ a, decodeOp op a = formF a c)
    (henc : ∀ a, encode (c a) = .command (commandWord op a)) (hwf : ∀ a, (c a).wf = true) : ReadsArg op 64 := by
  intro a
  rw [hop]
  exact ⟨fun _ => ⟨_, rfl, henc a, hwf a⟩, fun ha => absurd a.isLt ha⟩

end Forms

theorem readsArg_opsN : ∀ op ∈ opsN, ReadsArg op 0 := by
  intro op hop
  fin_cases hop <;> exact readsArg_formN (fun _ => rfl) rfl rfl

theorem readsArg_opsB : ∀ op ∈ opsB, ReadsArg op 1 := by
  intro op hop
  fin_cases hop <;> exact readsArg_formB (fun _ => rfl) (fun _ => rfl) (fun _ => rfl)

theorem readsArg_opsE : ∀ op ∈ opsE, ReadsArg op 4 := by
  intro op hop
  fin_cases hop <;> exact readsArg_formE (fun _ => rfl) (fun _ => rfl) (fun _ => rfl)

theorem readsArg_opsW : ∀ op ∈ opsW, ReadsArg op 16 := by
  intro op hop
  fin_cases hop <;> exact readsArg_formW (fun _ => rfl) (fun _ => rfl) (fun _ => rfl)

theorem readsArg_opsI : ∀ op ∈ opsI, ReadsArg op 64 := by
  intro op hop
  fin_cases hop <;> exact readsArg_formI (fun _ => rfl) (fun _ => rfl) (fun _ => rfl)

theorem readsArg_opsF : ∀ op ∈ opsF, ReadsArg op 64 := by
  intro op hop
  fin_cases hop <;> exact readsArg_formF (fun _ => rfl) (fun _ => rfl) (fun _ => rfl)

theorem readsArg_of_mem {op : BitVec 8} {n : Nat} (h : (op, n) ∈ opBits) : ReadsArg op n := by
  simp only [opBits, List.mem_append, List.mem_map, List.mem_cons, Prod.mk.injEq, List.not_mem_nil, or_false] at h
  rcases h with (((((⟨o, ho, rfl, rfl⟩ | ⟨o, ho, rfl, rfl⟩) | ⟨rfl, rfl⟩ | ⟨rfl, rfl⟩) | ⟨o, ho, rfl, rfl⟩) |
    ⟨o, ho, rfl, rfl⟩) | ⟨o, ho, rfl, rfl⟩) | ⟨o, ho, rfl, rfl⟩
  · exact readsArg_opsN o ho
  · exact readsArg_opsB o ho
  · exact readsArg_formS (fun _ => rfl) (fun _ _ => rfl) (fun _ _ => rfl)
  · exact readsArg_formP (fun _ => rfl) (fun _ => rfl) (fun _ => rfl)
  · exact readsArg_opsE o ho
  · exact readsArg_opsW o ho
  · exact readsArg_opsI o ho
  · exact readsArg_opsF o ho

/-- An `op` outside the map is refused. -/
theorem decodeOp_undefined {op : BitVec 8} (h : op.toNat ∉ opBits.map fun r => r.1.toNat) (a : Arg) :
    decodeOp op a = .error (.undefinedOp op) := by
  unfold decodeOp
  split
  case h_64 => rfl
  all_goals
    rename_i hvalue
    exact absurd (by rw [hvalue]; decide) h

/-- An argument that decodes lies within the bits its `op` uses. -/
theorem exists_opBits_of_decodeOp {op : BitVec 8} {a : Arg} {i : Instr} (h : decodeOp op a = .ok i) :
    ∃ n, (op, n) ∈ opBits ∧ a.toNat < 2 ^ n := by
  by_cases hop : op.toNat ∈ opBits.map fun r => r.1.toNat
  · obtain ⟨⟨o, n⟩, hmem, ho⟩ := List.mem_map.mp hop
    obtain rfl : o = op := BitVec.eq_of_toNat_eq ho
    refine ⟨n, hmem, ?_⟩
    by_contra hlt
    obtain ⟨e, he⟩ := (readsArg_of_mem hmem a).2 hlt
    rw [h] at he
    cases he
  · rw [decodeOp_undefined hop] at h
    cases h

/-- The instruction read from an `op` and an argument is written back as them, and is well formed. -/
theorem encode_of_decodeOp {op : BitVec 8} {a : Arg} {i : Instr} (h : decodeOp op a = .ok i) :
    encode i = .command (commandWord op a) ∧ i.wf = true := by
  obtain ⟨n, hmem, hlt⟩ := exists_opBits_of_decodeOp h
  obtain ⟨i', hi', henc, hwf⟩ := (readsArg_of_mem hmem a).1 hlt
  rw [h] at hi'
  cases hi'
  exact ⟨henc, hwf⟩

/-! ### The bus port -/

/-- A CONF word without unassigned bits is the word of its five fields. -/
theorem confOfCodes_extract {w : Word} (h : w &&& confUnassigned = 0#16) :
    confOfCodes (w.extractLsb' 11 2) (w.extractLsb' 6 4) (w.extractLsb' 4 2) (w.extractLsb' 1 1)
      (w.extractLsb' 0 1) = w := by
  apply BitVec.eq_of_getLsbD_eq
  intro k hk
  have hbit := congrArg (fun v => v.getLsbD k) h
  simp only [confUnassigned] at hbit
  simp only [confOfCodes, BitVec.getLsbD_append, BitVec.getLsbD_extractLsb']
  interval_cases k <;> simp_all

/-- A PSM word without unassigned bits is the word of its two fields. -/
theorem psmOfCodes_extract {w : Word} (h : w &&& psmUnassigned = 0#16) :
    psmOfCodes (w.extractLsb' 1 2) (w.extractLsb' 0 1) = w := by
  apply BitVec.eq_of_getLsbD_eq
  intro k hk
  have hbit := congrArg (fun v => v.getLsbD k) h
  simp only [psmUnassigned] at hbit
  simp only [psmOfCodes, BitVec.getLsbD_append, BitVec.getLsbD_extractLsb']
  interval_cases k <;> simp_all

/-- The row read from a code and a word is written back as them; every bus row is well formed. -/
theorem encode_of_decodeWord {code : Code} {w : Word} {i : Instr} (h : decodeWord code w = .ok i) :
    encode i = .bus (busRow code w) ∧ i.wf = true ∧ isBusRow i = true := by
  have hcode : ∀ c : Code, code.toNat = c.toNat → busRow c w = busRow code w :=
    fun c hc => congrArg (busRow · w) (BitVec.eq_of_toNat_eq hc.symm)
  unfold decodeWord at h
  split at h
  case h_1 hc =>
    split at h
    case isTrue hw =>
      cases h
      refine ⟨?_, rfl, rfl⟩
      rw [encode, confOfCodes_extract hw, hcode 0x00#8 hc]
    case isFalse => cases h
  case h_4 hc =>
    split at h
    case isTrue hw =>
      cases h
      refine ⟨?_, rfl, rfl⟩
      rw [encode, psmOfCodes_extract hw, hcode 0x03#8 hc]
    case isFalse => cases h
  case h_7 hc =>
    cases h
    refine ⟨?_, rfl, rfl⟩
    have hw : intOfFields (w.extractLsb' 14 2) (w.extractLsb' 0 14) = w := append_extract (m := 2) (n := 14) w
    rw [encode, hw, hcode 0x06#8 hc]
  case h_2 hc => cases h; exact ⟨congrArg _ (hcode 0x01#8 hc), rfl, rfl⟩
  case h_3 hc => cases h; exact ⟨congrArg _ (hcode 0x02#8 hc), rfl, rfl⟩
  case h_5 hc => cases h; exact ⟨congrArg _ (hcode 0x04#8 hc), rfl, rfl⟩
  case h_6 hc => cases h; exact ⟨congrArg _ (hcode 0x05#8 hc), rfl, rfl⟩
  case h_8 => cases h

theorem encode_of_decodeBus {w : BusRow} {i : Instr} (h : decodeBus w = .ok i) :
    encode i = .bus w ∧ i.wf = true ∧ isBusRow i = true := by
  obtain ⟨henc, hwf, hbus⟩ := encode_of_decodeWord h
  exact ⟨by rw [henc, busRow_fields], hwf, hbus⟩

theorem encode_of_decodeCommand {w : Command} {i : Instr} (h : decodeCommand w = .ok i) :
    encode i = .command w ∧ i.wf = true := by
  obtain ⟨henc, hwf⟩ := encode_of_decodeOp h
  exact ⟨by rw [henc, commandWord_fields], hwf⟩

/-- No command word is a bus row. -/
theorem isBusRow_of_decodeCommand {w : Command} {i : Instr} (h : decodeCommand w = .ok i) : isBusRow i = false := by
  have henc := (encode_of_decodeCommand h).1
  cases i with
  | busConf | busThrHi | busThrLo | busPsm | busAls | busWhite | busInt => cases henc
  | _ => rfl

/-- Settles O10: on the command port by the argument forms (`readsArg_of_mem`), on the bus by the seven codes. -/
theorem encodeOfDecode : Obligations.EncodeOfDecode := by
  intro w i h
  cases w with
  | command w => exact encode_of_decodeCommand h
  | bus w =>
    obtain ⟨henc, hwf, -⟩ := encode_of_decodeBus h
    exact ⟨henc, hwf⟩

/-- Settles O11: the ten words, run through the decoder. -/
theorem decodeWords : Obligations.DecodeWords := by
  unfold Obligations.DecodeWords
  decide

/-! ### The opcode table's words (30_encoding section 6, spec/opcode_table.json) -/

/-- The match and the mask of a row whose `op` uses the low `n` argument bits. -/
def rowOf (r : BitVec 8 × Nat) : Command × Command :=
  (r.1 ++ 0#64, 0xFF#8 ++ ~~~(BitVec.ofNat 64 (2 ^ r.2 - 1)))

/-- The table's 63 rows are those of the operation map. -/
theorem mem_commandRows_iff (row : Command × Command) : row ∈ commandRows ↔ row ∈ opBits.map rowOf := by
  have hsub : commandRows ⊆ opBits.map rowOf ∧ opBits.map rowOf ⊆ commandRows := by decide +kernel
  exact ⟨fun h => hsub.1 h, fun h => hsub.2 h⟩

/-- A mask of ones over the upper field and the complement of `used` over the lower. -/
theorem append_masked_iff {m n : Nat} (c x : BitVec m) (w used : BitVec n) :
    (x ++ w) &&& (BitVec.allOnes m ++ ~~~used) = c ++ 0#n ↔ x = c ∧ w &&& ~~~used = 0#n := by
  rw [BitVec.and_append, BitVec.and_allOnes]
  constructor
  · intro h
    refine ⟨?_, ?_⟩
    · rw [← extract_append_high x (w &&& ~~~used), h, extract_append_high]
    · rw [← extract_append_low x (w &&& ~~~used), h, extract_append_low]
  · rintro ⟨rfl, h⟩
    rw [h]

/-- An argument has no bit outside the low `n` exactly when it is below `2 ^ n`. -/
theorem and_not_low_iff {n : Nat} (a : Arg) :
    a &&& ~~~(BitVec.ofNat 64 (2 ^ n - 1)) = 0#64 ↔ a.toNat < 2 ^ n := by
  constructor
  · intro h
    refine Nat.lt_pow_two_of_testBit _ fun k hk => ?_
    rw [BitVec.testBit_toNat]
    by_cases hk64 : k < 64
    · have hbit := congrArg (fun v => v.getLsbD k) h
      simpa only [BitVec.getLsbD_and, BitVec.getLsbD_not, BitVec.getLsbD_ofNat, BitVec.getLsbD_zero, hk64,
        Nat.testBit_two_pow_sub_one, Nat.not_lt.mpr hk, Nat.zero_testBit, decide_true, decide_false, Bool.and_false,
        Bool.not_false,
        Bool.and_true] using hbit
    · exact BitVec.getLsbD_of_ge a k (by omega)
  · intro h
    rw [← argNat_toNat a]
    exact argNat_masked n _ h

theorem matches_rowOf_iff {op : BitVec 8} {n : Nat} (w : Command) :
    w &&& (rowOf (op, n)).2 = (rowOf (op, n)).1 ↔ commandOp w = op ∧ (commandArg w).toNat < 2 ^ n := by
  rw [← and_not_low_iff, ← append_masked_iff]
  have hw : commandOp w ++ commandArg w = w := commandWord_fields w
  rw [hw]
  rfl

/-- A command word decodes exactly when it is a word of the table. -/
theorem decodeCommand_ok_iff (w : Command) :
    (∃ i, decodeCommand w = .ok i) ↔ ∃ row ∈ commandRows, w &&& row.2 = row.1 := by
  constructor
  · rintro ⟨i, h⟩
    obtain ⟨n, hmem, hlt⟩ := exists_opBits_of_decodeOp h
    exact ⟨_, (mem_commandRows_iff _).mpr (List.mem_map_of_mem hmem),
      (matches_rowOf_iff w).mpr ⟨rfl, hlt⟩⟩
  · rintro ⟨row, hrow, hmatch⟩
    obtain ⟨⟨op, n⟩, hmem, rfl⟩ := List.mem_map.mp ((mem_commandRows_iff row).mp hrow)
    obtain ⟨rfl, hlt⟩ := (matches_rowOf_iff w).mp hmatch
    obtain ⟨i, hi, -⟩ := (readsArg_of_mem hmem _).1 hlt
    exact ⟨i, hi⟩

/-- Every code of the bus with the word bits its format assigns (30_encoding R60). -/
def codeBits : List (Code × Word) :=
  [(0x00#8, ~~~confUnassigned), (0x01#8, 0xFFFF#16), (0x02#8, 0xFFFF#16), (0x03#8, ~~~psmUnassigned),
    (0x04#8, 0xFFFF#16), (0x05#8, 0xFFFF#16), (0x06#8, 0xFFFF#16)]

theorem busRows_eq : busRows = codeBits.map fun r => (r.1 ++ 0#16, 0xFF#8 ++ ~~~r.2) := by decide

theorem matches_busRow_iff (code : Code) (assigned : Word) (w : BusRow) :
    w &&& (0xFF#8 ++ ~~~assigned) = code ++ 0#16 ↔ busRowCode w = code ∧ busRowWord w &&& ~~~assigned = 0#16 := by
  rw [← append_masked_iff]
  have hw : busRowCode w ++ busRowWord w = w := busRow_fields w
  rw [hw]
  rfl

theorem exists_ok_ite_iff (p : Prop) [Decidable p] (i : Instr) (e : DecodeError) :
    (∃ j, (if p then .ok i else .error e : Except DecodeError Instr) = .ok j) ↔ p := by
  split
  · next hp => exact ⟨fun _ => hp, fun _ => ⟨i, rfl⟩⟩
  · next hp => exact ⟨fun ⟨_, h⟩ => (nomatch h), fun h => absurd h hp⟩

/-- A word of a code decodes exactly when it has no unassigned bit. -/
theorem decodeWord_ok_iff {r : Code × Word} (hr : r ∈ codeBits) (w : Word) :
    (∃ i, decodeWord r.1 w = .ok i) ↔ w &&& ~~~r.2 = 0#16 := by
  have full : w &&& ~~~0xFFFF#16 = 0#16 := wordFull_masked w
  simp only [codeBits, List.mem_cons, List.not_mem_nil, or_false] at hr
  rcases hr with rfl | rfl | rfl | rfl | rfl | rfl | rfl
  case inl => exact BitVec.not_not ▸ exists_ok_ite_iff _ _ _
  case inr.inr.inr.inl => exact BitVec.not_not ▸ exists_ok_ite_iff _ _ _
  all_goals exact ⟨fun _ => full, fun _ => ⟨_, rfl⟩⟩

/-- A code outside the seven is refused. -/
theorem decodeWord_undefined {code : Code} (h : code.toNat ∉ codeBits.map fun r => r.1.toNat) (w : Word) :
    decodeWord code w = .error (.undefinedCode code) := by
  unfold decodeWord
  split
  case h_8 => rfl
  all_goals
    rename_i hvalue
    exact absurd (by rw [hvalue]; decide) h

/-- A bus row decodes exactly when it is a word of the table. -/
theorem decodeBus_ok_iff (w : BusRow) :
    (∃ i, decodeBus w = .ok i) ↔ ∃ row ∈ busRows, w &&& row.2 = row.1 := by
  rw [busRows_eq]
  constructor
  · rintro ⟨i, h⟩
    by_cases hc : (busRowCode w).toNat ∈ codeBits.map fun r => r.1.toNat
    · obtain ⟨r, hr, hrc⟩ := List.mem_map.mp hc
      have hcode : busRowCode w = r.1 := BitVec.eq_of_toNat_eq hrc.symm
      refine ⟨_, List.mem_map_of_mem hr, (matches_busRow_iff _ _ w).mpr ⟨hcode, ?_⟩⟩
      exact (decodeWord_ok_iff hr _).mp ⟨i, hcode ▸ h⟩
    · rw [decodeBus, decodeWord_undefined hc] at h
      cases h
  · rintro ⟨row, hrow, hmatch⟩
    obtain ⟨r, hr, rfl⟩ := List.mem_map.mp hrow
    obtain ⟨hcode, hword⟩ := (matches_busRow_iff _ _ w).mp hmatch
    obtain ⟨i, hi⟩ := (decodeWord_ok_iff hr _).mpr hword
    exact ⟨i, by rw [decodeBus, hcode, hi]⟩

/-- Settles O12: both tables are those of the decoder's own argument bits (`opBits`) and word formats (`codeBits`). -/
theorem decodedExactlyTheTable : Obligations.DecodedExactlyTheTable :=
  ⟨decodeCommand_ok_iff, decodeBus_ok_iff⟩

end Sys2Proof.Proofs

/-! One operation from its command to its response: what it can do between two answers of the transport (`Turn`), what
an operation keeps as its own there (`Sound`), and both along the whole run against the answers. -/

namespace Sys2Proof.Proofs
open Sys2Proof Sys2Proof.Machine Sys2Proof.Laws

/-! ### One turn -/

/-- What an operation does from a state up to its next stop: it changes S and gives its response, or changes S and has a
transaction outstanding. -/
inductive Turn (s : State) : State → Prop
  | answer (d : DeviceState) (r : Response) : Turn s ({ s with dev := d }.respond r)
  | wait (d : DeviceState) (q : Request) (k : Resume) : Turn s ({ s with dev := d }.issue q k)

section
variable {s t : State}

theorem Turn.respond (s : State) (r : Response) : Turn s (s.respond r) := .answer s.dev r

theorem Turn.issue (s : State) (q : Request) (k : Resume) : Turn s (s.issue q k) := .wait s.dev q k

theorem Turn.answers (h : Turn s t) : t.answers = s.answers := by
  cases h <;> rfl

theorem Turn.sensor (h : Turn s t) : t.sensor = s.sensor := by
  cases h <;> rfl

theorem Turn.trace (h : Turn s t) : t.trace = s.trace := by
  cases h <;> rfl

/-- A turn taken after storing a value is a turn. -/
theorem Turn.of_stored {d : DeviceState} (h : Turn { s with dev := d } t) : Turn s t := by
  cases h with
  | answer d' r => exact .answer d' r
  | wait d' q k => exact .wait d' q k

theorem Turn.writeImage (s : State) (reg : SensorReg) (k : Resume) : Turn s (s.writeImage reg k) := by
  obtain ⟨w, -, h⟩ | ⟨-, h⟩ := writeImage_cases s reg k
  · exact h ▸ .issue s _ k
  · exact h ▸ .respond s _

theorem Turn.setField (s : State) (unchanged : Bool) (d : DeviceState) (reg : SensorReg) :
    Turn s (s.setField unchanged d reg) := by
  cases unchanged with
  | true => exact .respond s _
  | false => exact .of_stored (.writeImage { s with dev := d } reg .respond)

theorem Turn.setPower (s : State) (p : PowerStatus) : Turn s (s.setPower p) := by
  unfold State.setPower
  dsimp only
  split
  · exact .setField s _ _ _
  · exact .of_stored (.writeImage _ _ _)

theorem Turn.withValue {α : Type} (o : Option α) {k : α → State → State} (h : ∀ v, Turn s (k v s)) :
    Turn s (withValue o k s) := by
  cases o with
  | some v => exact h v
  | none => exact .respond s _

theorem Turn.withData {α : Type} (o : Option α) {k : α → State → State} (h : ∀ v, Turn s (k v s)) :
    Turn s (withData o k s) := by
  cases o with
  | some v => exact h v
  | none => exact .respond s _

theorem Turn.stepTo {α : Type} (o : Option α) {k : α → State → State} (h : ∀ v, Turn s (k v s)) :
    Turn s (stepTo o k s) := by
  cases o with
  | some v => exact h v
  | none => exact .respond s _

theorem Turn.judge (s : State) (w : Word) : Turn s (s.judge w) := by
  obtain ⟨-, h⟩ | ⟨d, -, h⟩ := judge_cases s w
  · exact h ▸ .respond s _
  · exact h ▸ .wait d _ _

theorem Turn.resumeWith (s : State) (k : Resume) (w : Word) : Turn s (s.resumeWith k w) := by
  cases k with
  | respond => exact .respond s _
  | powerSaving e m => exact .setField s _ _ _
  | sampleAls readWhite =>
    cases readWhite with
    | true => exact .wait _ _ _
    | false => exact .answer _ _
  | sampleWhite readAls => exact .answer _ _
  | calibrateSampling => exact .of_stored (.judge _ w)
  | calibrateAdjusting => exact .issue s _ _
  | pollEvent => exact .answer _ _

/-- An answered transaction enters the trace, and then the operation takes one turn. -/
theorem Turn.complete (s : State) (q : Request) (k : Resume) (a : Answer) :
    Turn (s.record q a) (s.complete q k a) := by
  cases a with
  | ok w => exact .resumeWith _ k w
  | err e => exact .respond _ _

end

/-! ### Operations that only answer (20_memory R44, last paragraph) -/

section
variable {α : Type} (s : State) (o : Option α) (f : α → Arg)

theorem exists_respond_withValue : ∃ r, withValue o (fun v s => s.finish (f v)) s = s.respond r := by
  cases o with
  | some v => exact ⟨_, rfl⟩
  | none => exact ⟨_, rfl⟩

theorem exists_respond_withData : ∃ r, withData o (fun v s => s.finish (f v)) s = s.respond r := by
  cases o with
  | some v => exact ⟨_, rfl⟩
  | none => exact ⟨_, rfl⟩

end

/-- A pure operation only answers, from any state. -/
theorem started_pure {i : Instr} (hi : isPure i = true) (s : State) : ∃ r, started i s = s.respond r := by
  cases i with
  | getThrh | getThrl | getAls | getWhite | getEvent | isOvf | isUnf | classify =>
    exact exists_respond_withData s _ _
  | hlc | raw2lux => exact exists_respond_withValue s _ _
  | lux =>
    cases hals : s.dev.als with
    | none => exact ⟨errorResponse .noData, by rw [started, hals, withData_none, State.raise]⟩
    | some w =>
      obtain ⟨r, hr⟩ := exists_respond_withValue s (rawToLux s.cfg s.dev w) (resultNum (resultWord w))
      exact ⟨r, by rw [started, hals, withData_some]; exact hr⟩
  | refresh =>
    cases hms : refreshMillis s.cfg s.dev with
    | none => exact ⟨⟨.infinite, resultNone⟩, by simp only [started, hms]⟩
    | some ms => exact ⟨⟨.ok, resultNat ms⟩, by simp only [started, hms, State.finish]⟩
  | getGain | getIt | getPers | getInten | getSd | getPsm | getPsmen | getPower | luxRes | luxOvf => exact ⟨_, rfl⟩
  | setGainE | setGainF | setItE | setItF | setPersE | setPersF | setInten | setSd | setPsm | setPsmen | setPower
  | setThrh | setThrl | sample | gainUp | gainDn | itUp | itDn | calibrate | pollEvent
  | busConf | busThrHi | busThrLo | busPsm | busAls | busWhite | busInt => exact absurd hi Bool.false_ne_true
  | _ => exact ⟨_, started_codec rfl s⟩

theorem isBusRow_of_isPure {i : Instr} (hi : isPure i = true) : isBusRow i = false := by
  cases i with
  | busConf | busThrHi | busThrLo | busPsm | busAls | busWhite | busInt => exact absurd hi Bool.false_ne_true
  | _ => rfl

/-- Settles O22: `started_pure`, and a response given by an idle block is all that changes. -/
theorem pureOperationsOnlyAnswer : Obligations.PureOperationsOnlyAnswer := by
  intro i s hi hs
  obtain ⟨r, hr⟩ := started_pure hi s
  exact ⟨r, by rw [exec_idle i (isBusRow_of_isPure hi) hs, hr, drive_respond, respond_of_idle s r hs]⟩

/-- The commands: the pure ones, the single-field setters, and the eight others. -/
theorem command_kinds {i : Instr} (hi : isBusRow i = false) :
    isPure i = true ∨ isSetter i = true ∨ (∃ k, i = .setPower k) ∨ (∃ a w, i = .sample a w) ∨ i = .gainUp ∨
      i = .gainDn ∨ i = .itUp ∨ i = .itDn ∨ i = .calibrate ∨ i = .pollEvent := by
  cases i <;> simp [isPure, isSetter, isBusRow] at hi ⊢

theorem started_pollEvent (s : State) :
    started .pollEvent s =
      if s.dev.intEn then s.issue (.read .int) .pollEvent else s.respond ⟨.noEvent, resultNone⟩ := rfl

theorem Turn.started {i : Instr} (hi : isBusRow i = false) (s : State) : Turn s (started i s) := by
  rcases command_kinds hi with hpure | hset | ⟨k, rfl⟩ | ⟨readAls, readWhite, rfl⟩ | rfl | rfl | rfl | rfl | rfl | rfl
  · obtain ⟨r, hr⟩ := started_pure hpure s
    exact hr ▸ .respond s r
  · rw [started_setter hset]
    exact .withValue _ fun u => .setField s _ _ _
  · exact Turn.withValue (k := fun p s => s.setPower p) _ fun p => .setPower s p
  · cases readAls with
    | true => exact .issue s _ _
    | false =>
      cases readWhite with
      | true => exact .issue s _ _
      | false => exact .respond s _
  · exact .stepTo _ fun v => .setField s _ _ _
  · exact .stepTo _ fun v => .setField s _ _ _
  · exact .stepTo _ fun v => .setField s _ _ _
  · exact .stepTo _ fun v => .setField s _ _ _
  · exact .issue s _ _
  · rw [started_pollEvent]
    split
    · exact .issue s _ _
    · exact .respond s _

/-! ### Along the answers -/

/-- What every answered transaction keeps, and taking answers from the port does not touch, driving keeps. -/
theorem driveWith_keeps {P : State → Prop} (hanswers : ∀ s as, P s → P { s with answers := as })
    (hcomplete : ∀ s q k a, s.seq = .waiting q k → P s → P (s.complete q k a)) :
    ∀ (as : List Answer) (s : State), P s → P (driveWith as s) := by
  intro as
  induction as with
  | nil => exact fun s h => hanswers s [] h
  | cons a rest ih =>
    intro s h
    rcases seq_cases s.seq with hseq | ⟨q, k, hseq⟩
    · rw [driveWith_idle _ hseq]
      exact hanswers s _ h
    · rw [driveWith_waiting a rest hseq]
      exact ih _ (hcomplete s q k a hseq h)

/-- Driving takes answers from the front, and all of them when the operation does not end. -/
theorem driveWith_answers_suffix (as : List Answer) (s : State) :
    (driveWith as s).answers <:+ as ∧ ((driveWith as s).seq = .idle ∨ (driveWith as s).answers = []) := by
  induction as generalizing s with
  | nil => exact ⟨List.suffix_rfl, .inr rfl⟩
  | cons a rest ih =>
    rcases seq_cases s.seq with hseq | ⟨q, k, hseq⟩
    · rw [driveWith_idle _ hseq]
      exact ⟨List.suffix_rfl, .inl hseq⟩
    · rw [driveWith_waiting a rest hseq]
      obtain ⟨hsuffix, hend⟩ := ih (s.complete q k a)
      exact ⟨hsuffix.trans (List.suffix_cons a rest), hend⟩

/-- What an operation in flight has made of the state it started from: the ports but the transport's and the parameters
are as they were, the trace has grown, and it has answered exactly when it is over. -/
structure Progress (s t : State) : Prop where
  cmds : t.cmds = s.cmds
  resetIn : t.resetIn = s.resetIn
  cfg : t.cfg = s.cfg
  trace : s.trace <+: t.trace
  responses : (t.seq = .idle ∧ ∃ r, t.responses = s.responses ++ [r]) ∨
    (t.seq ≠ .idle ∧ t.responses = s.responses)

section
variable {s t : State}

theorem Progress.of_turn (h : Turn s t) : Progress s t := by
  cases h with
  | answer d r => exact ⟨rfl, rfl, rfl, List.prefix_rfl, .inl ⟨rfl, r, rfl⟩⟩
  | wait d q k => exact ⟨rfl, rfl, rfl, List.prefix_rfl, .inr ⟨nofun, rfl⟩⟩

/-- An answered transaction goes on from where the operation waits. -/
theorem Progress.complete {q : Request} {k : Resume} (a : Answer) (hseq : t.seq = .waiting q k) (h : Progress s t) :
    Progress s (t.complete q k a) := by
  have hturn := Progress.of_turn (Turn.complete t q k a)
  have hresponses : t.responses = s.responses := by
    rcases h.responses with ⟨hidle, -⟩ | ⟨-, hr⟩
    · rw [hseq] at hidle
      cases hidle
    · exact hr
  exact ⟨hturn.cmds.trans h.cmds, hturn.resetIn.trans h.resetIn, hturn.cfg.trans h.cfg,
    h.trace.trans ((List.prefix_append _ _).trans hturn.trace), hresponses ▸ hturn.responses⟩

theorem Progress.driveWith (as : List Answer) (h : Progress s t) : Progress s (driveWith as t) :=
  driveWith_keeps (P := Progress s) (fun _ _ h => ⟨h.cmds, h.resetIn, h.cfg, h.trace, h.responses⟩)
    (fun _ _ _ a hseq h => h.complete a hseq) as t h

end

/-! ### The ports -/

/-- A busy block holds every command. -/
theorem exec_busy {i : Instr} (hi : isBusRow i = false) {s : State} {q : Request} {k : Resume}
    (hs : s.seq = .waiting q k) : exec i s = .next s := by
  obtain ⟨dev, seq, sensor, cmds, answers, resetIn, responses, trace, cfg⟩ := s
  cases hs
  cases i with
  | busConf | busThrHi | busThrLo | busPsm | busAls | busWhite | busInt => exact absurd hi Bool.true_eq_false.mp
  | _ => rfl

/-- A bus row is its transaction answered `ok`. -/
theorem exec_busRow {i : Instr} {q : Request} {k : Resume} {w : Word} (h : outstandingFor i = some (.waiting q k, w))
    (s : State) : exec i s = s.transact q w := by
  cases i <;> cases h <;> rfl

theorem exists_outstandingFor {i : Instr} (hi : isBusRow i = true) :
    ∃ q k w, outstandingFor i = some (.waiting q k, w) := by
  cases i with
  | busConf | busThrHi | busThrLo | busPsm | busAls | busWhite | busInt => exact ⟨_, _, _, rfl⟩
  | _ => exact absurd hi Bool.false_ne_true

/-- Everything an instruction can make of a state. -/
theorem exec_next_cases {i : Instr} {s t : State} (h : exec i s = .next t) :
    (isBusRow i = false ∧ s.seq = .idle ∧ t = (started i s).drive) ∨
    (isBusRow i = false ∧ s.seq ≠ .idle ∧ t = s) ∨
    (isBusRow i = true ∧ ∃ q k w, s.seq = .waiting q k ∧ t = (s.complete q k (.ok w)).drive) := by
  cases hi : isBusRow i with
  | false =>
    rcases seq_cases s.seq with hseq | ⟨q, k, hseq⟩
    · rw [exec_idle i hi hseq] at h
      exact .inl ⟨rfl, hseq, (Host.Outcome.next.inj h).symm⟩
    · rw [exec_busy hi hseq] at h
      exact .inr (.inl ⟨rfl, by simp [hseq], (Host.Outcome.next.inj h).symm⟩)
  | true =>
    obtain ⟨q, k, w, ho⟩ := exists_outstandingFor hi
    rw [exec_busRow ho] at h
    obtain ⟨k', hseq, ht⟩ := transact_next h
    exact .inr (.inr ⟨rfl, q, k', w, hseq, ht⟩)

/-- What an idle block makes of an instruction: its operation, driven. -/
theorem exec_next_idle {i : Instr} {s t : State} (hs : s.seq = .idle) (h : exec i s = .next t) :
    isBusRow i = false ∧ t = (started i s).drive := by
  rcases exec_next_cases h with ⟨hi, -, ht⟩ | ⟨-, hne, -⟩ | ⟨-, q, k, w, hseq, -⟩
  · exact ⟨hi, ht⟩
  · exact absurd hs hne
  · rw [hs] at hseq
    cases hseq

/-- Settles O59: `Progress` along the answers, and the answers are taken from the front (`driveWith_answers_suffix`). -/
theorem oneResponsePerOperation : Obligations.OneResponsePerOperation := by
  intro i s t hs hexec
  obtain ⟨hi, rfl⟩ := exec_next_idle hs hexec
  have hturn := Turn.started hi s
  have hanswers : (started i s).answers = s.answers := hturn.answers
  have hprogress : Progress s (started i s).drive := (Progress.of_turn hturn).driveWith _
  obtain ⟨hsuffix, hend⟩ := driveWith_answers_suffix (started i s).answers (started i s)
  refine ⟨hprogress.cmds, hprogress.resetIn, hprogress.cfg, hanswers ▸ hsuffix, ?_⟩
  rcases hprogress.responses with hdone | ⟨hwait, hresponses⟩
  · exact .inl hdone
  · exact .inr ⟨hwait, hresponses, hend.resolve_left hwait⟩

/-- What a step of whichever state keeps: the parameters, and the trace and the responses as a beginning; a busy block
also keeps the commands at its port. -/
structure Kept (s t : State) : Prop where
  cfg : t.cfg = s.cfg
  trace : s.trace <+: t.trace
  responses : s.responses <+: t.responses
  cmds : s.seq ≠ .idle → t.cmds = s.cmds

theorem Kept.refl (s : State) : Kept s s := ⟨rfl, List.prefix_rfl, List.prefix_rfl, fun _ => rfl⟩

theorem Kept.of_progress {s t : State} (h : Progress s t) : Kept s t := by
  refine ⟨h.cfg, h.trace, ?_, fun _ => h.cmds⟩
  rcases h.responses with ⟨-, r, hr⟩ | ⟨-, hr⟩
  · exact hr ▸ List.prefix_append _ _
  · exact hr ▸ List.prefix_rfl

/-- An answered transaction, driven on. -/
theorem Kept.complete (s : State) (q : Request) (k : Resume) (a : Answer) (as : List Answer) :
    Kept s (driveWith as (s.complete q k a)) := by
  have h := Kept.of_progress ((Progress.of_turn (Turn.complete s q k a)).driveWith as)
  refine ⟨h.cfg, (List.prefix_append _ _).trans h.trace, h.responses, fun hs => h.cmds hs⟩

theorem Kept.exec {i : Instr} {s t : State} (h : exec i s = .next t) : Kept s t := by
  rcases exec_next_cases h with ⟨hi, -, rfl⟩ | ⟨-, -, rfl⟩ | ⟨-, q, k, w, -, rfl⟩
  · exact .of_progress ((Progress.of_turn (.started hi s)).driveWith _)
  · exact .refl _
  · exact .complete s q k _ _

/-- Everything the fetch can find. -/
theorem fetch_cases (s : State) :
    (s.resetIn = true ∧ fetch s = .reset) ∨ fetch s = .nothing ∨ fetch s = .unissuable ∨
    (∃ rest, s.seq = .idle ∧ fetch s = .illegal { s with cmds := rest }) ∨
    (∃ w rest i, s.seq = .idle ∧ s.cmds = w :: rest ∧ decodeCommand w = .ok i ∧
      fetch s = .run i { s with cmds := rest }) ∨
    (∃ q k t rest, s.seq = .waiting q k ∧ s.answers = .err t :: rest ∧
      fetch s = .failed q k t { s with answers := rest }) ∨
    (∃ q k w rest i, s.seq = .waiting q k ∧ s.answers = .ok w :: rest ∧ transactionInstr q w = some i ∧
      fetch s = .run i { s with answers := rest }) := by
  unfold fetch
  split
  · rename_i hreset
    exact .inl ⟨hreset, rfl⟩
  · right
    split
    · rename_i hseq
      split
      · exact .inl rfl
      · rename_i w rest hcmds
        split
        · rename_i i hdec
          exact .inr (.inr (.inr (.inl ⟨w, rest, i, hseq, hcmds, hdec, rfl⟩)))
        · exact .inr (.inr (.inl ⟨rest, hseq, rfl⟩))
    · rename_i q k hseq
      split
      · exact .inl rfl
      · rename_i t rest hans
        exact .inr (.inr (.inr (.inr (.inl ⟨q, k, t, rest, hseq, hans, rfl⟩))))
      · rename_i w rest hans
        split
        · rename_i i hi
          exact .inr (.inr (.inr (.inr (.inr ⟨q, k, w, rest, i, hseq, hans, hi, rfl⟩))))
        · exact .inr (.inl rfl)

theorem Kept.step {s t : State} (h : step s = .next t) : Kept s t := by
  rcases fetch_cases s with ⟨-, hf⟩ | hf | hf | ⟨rest, hseq, hf⟩ | ⟨w, rest, i, hseq, -, -, hf⟩ |
    ⟨q, k, e, rest, -, -, hf⟩ | ⟨q, k, w, rest, i, -, -, -, hf⟩ <;> simp only [Machine.step, hf] at h
  · cases h
    exact ⟨rfl, List.prefix_rfl, List.prefix_rfl, fun _ => rfl⟩
  · cases h
    exact .refl _
  · cases h
  · cases h
    exact ⟨rfl, List.prefix_rfl, List.prefix_append _ _, fun hne => absurd hseq hne⟩
  · have hkept := Kept.exec h
    exact ⟨hkept.cfg, hkept.trace, hkept.responses, fun hne => absurd hseq hne⟩
  · cases h
    have hkept := Kept.complete { s with answers := rest } q k (.err e) []
    exact ⟨hkept.cfg, hkept.trace, hkept.responses, hkept.cmds⟩
  · have hkept := Kept.exec h
    exact ⟨hkept.cfg, hkept.trace, hkept.responses, hkept.cmds⟩

/-- Settles O60: `Kept` of the step, whichever of the fetch's cases it is. -/
theorem stepKeepsParametersAndHistory : Obligations.StepKeepsParametersAndHistory := by
  intro s t h
  have hkept := Kept.step h
  exact ⟨hkept.cfg, hkept.trace, hkept.responses⟩

/-- Settles O7: a busy block refuses every command's operation, and its steps act on the transport's answers alone. -/
theorem commandPortHolds : Obligations.CommandPortHolds := by
  refine ⟨fun i s hi hs => ?_, fun s t _ hs h => (Kept.step h).cmds hs⟩
  rcases seq_cases s.seq with hseq | ⟨q, k, hseq⟩
  · exact absurd hseq hs
  · exact exec_busy hi hseq

end Sys2Proof.Proofs

/-! What an operation keeps as its own: the fields it may write, the transactions it may issue, and that the register
images of S stay what they were but for the register it is writing. Along the run this gives the invariant of the
step, the agreement of the sensor with the shadow, and that late answers change nothing. -/

namespace Sys2Proof.Proofs
open Sys2Proof Sys2Proof.Machine Sys2Proof.Laws

/-! ### The places of an operation -/

/-- The operation that waits to go on at `k`; a write whose response is all that is left can be any operation's. -/
def Belongs (i : Instr) : Resume → Prop
  | .respond => True
  | .powerSaving _ _ => ∃ status, i = .setPower status
  | .sampleAls readWhite => i = .sample true readWhite
  | .sampleWhite readAls => i = .sample readAls true
  | .calibrateSampling => i = .calibrate
  | .calibrateAdjusting => i = .calibrate
  | .pollEvent => i = .pollEvent

/-- The transaction is of the operation's row of the address map (20_memory R44), however it is answered. -/
def Issues (i : Instr) (q : Request) : Prop := ∀ a, mayIssue i (busEvent q a) = true

theorem issues_write {i : Instr} {reg : SensorReg} (h : ∀ w e, mayIssue i (.write reg w e) = true) (w : Word) :
    Issues i (.write reg w) := by
  intro a
  cases a <;> exact h w _

/-- The outstanding transaction, told apart by where the operation goes on. -/
theorem requestOk_cases {s : State} {q : Request} {k : Resume} (hreq : s.requestOk = true)
    (hseq : s.seq = .waiting q k) :
    (∃ reg w, q = .write reg w ∧ shadowImage s.cfg s.dev reg = some w ∧
      (k = .respond ∨ reg = .conf ∧ ((∃ e m, k = .powerSaving e m) ∨ k = .calibrateAdjusting))) ∨
    (q = .read .als ∧ ((∃ b, k = .sampleAls b) ∨ k = .calibrateSampling)) ∨
    (q = .read .white ∧ ∃ b, k = .sampleWhite b) ∨ (q = .read .int ∧ k = .pollEvent) := by
  obtain ⟨dev, seq, sensor, cmds, answers, resetIn, responses, trace, cfg⟩ := s
  cases hseq
  cases q with
  | read reg =>
    cases k with
    | sampleAls b => cases reg with
      | als => exact .inr (.inl ⟨rfl, .inl ⟨b, rfl⟩⟩)
      | _ => cases hreq
    | sampleWhite b => cases reg with
      | white => exact .inr (.inr (.inl ⟨rfl, b, rfl⟩))
      | _ => cases hreq
    | calibrateSampling => cases reg with
      | als => exact .inr (.inl ⟨rfl, .inr rfl⟩)
      | _ => cases hreq
    | pollEvent => cases reg with
      | int => exact .inr (.inr (.inr ⟨rfl, rfl⟩))
      | _ => cases hreq
    | respond | powerSaving | calibrateAdjusting => cases reg <;> cases hreq
  | write reg w =>
    cases k with
    | respond => cases reg <;> exact .inl ⟨_, w, rfl, of_decide_eq_true hreq, .inl rfl⟩
    | powerSaving e m =>
      cases reg with
      | conf =>
        exact .inl ⟨_, w, rfl, congrArg some (of_decide_eq_true hreq).symm, .inr ⟨rfl, .inl ⟨e, m, rfl⟩⟩⟩
      | _ => cases hreq
    | calibrateAdjusting =>
      cases reg with
      | conf => exact .inl ⟨_, w, rfl, congrArg some (of_decide_eq_true hreq).symm, .inr ⟨rfl, .inr rfl⟩⟩
      | _ => cases hreq
    | sampleAls | sampleWhite | calibrateSampling | pollEvent => cases reg <;> cases hreq

/-- An outstanding write carries the image of S. -/
theorem image_of_requestOk {s : State} {reg : SensorReg} {w : Word} {k : Resume} (hreq : s.requestOk = true)
    (hseq : s.seq = .waiting (.write reg w) k) : shadowImage s.cfg s.dev reg = some w := by
  rcases requestOk_cases hreq hseq with ⟨reg', w', hq, himg, -⟩ | ⟨hq, -⟩ | ⟨hq, -⟩ | ⟨hq, -⟩ <;> cases hq
  exact himg

/-- Only the four registers the block writes have an image (10_state R28). -/
theorem regKey_lt_of_image {p : Params} {d : DeviceState} {reg : SensorReg} {w : Word}
    (h : shadowImage p d reg = some w) : regKey reg < 4 := by
  cases reg with
  | conf | thrHi | thrLo | psm => decide
  | als | white | int => cases h

/-- Every legal outstanding transaction is some operation's. -/
theorem exists_owner {s : State} {q : Request} {k : Resume} (hreq : s.requestOk = true)
    (hseq : s.seq = .waiting q k) : ∃ i, Issues i q ∧ Belongs i k := by
  rcases requestOk_cases hreq hseq with
    ⟨reg, w, rfl, himg, rfl | ⟨rfl, ⟨e, m, rfl⟩ | rfl⟩⟩ | ⟨rfl, ⟨b, rfl⟩ | rfl⟩ | ⟨rfl, b, rfl⟩ | ⟨rfl, rfl⟩
  · cases reg with
    | conf => exact ⟨.setSd true, issues_write (fun _ _ => rfl) w, trivial⟩
    | psm => exact ⟨.setPsmen true, issues_write (fun _ _ => rfl) w, trivial⟩
    | thrHi => exact ⟨.setThrh 0, issues_write (fun _ _ => rfl) w, trivial⟩
    | thrLo => exact ⟨.setThrl 0, issues_write (fun _ _ => rfl) w, trivial⟩
    | als | white | int => cases himg
  · exact ⟨.setPower 0, issues_write (fun _ _ => rfl) w, 0, rfl⟩
  · exact ⟨.calibrate, issues_write (fun _ _ => rfl) w, rfl⟩
  · exact ⟨.sample true b, fun _ => rfl, rfl⟩
  · exact ⟨.calibrate, fun _ => rfl, rfl⟩
  · exact ⟨.sample b true, fun _ => rfl, rfl⟩
  · exact ⟨.pollEvent, fun _ => rfl, rfl⟩

/-! ### What one turn of an operation keeps -/

/-- `t` is where operation `i` stops next from `s`: it wrote only fields it may write, what it waits for is its own and
legal, and every register but one it is writing has the image it had. -/
structure Sound (i : Instr) (s t : State) : Prop where
  fields : ∀ f, mayWrite i f = false → sameField s.dev t.dev f
  own : ∀ q k, t.seq = .waiting q k → Issues i q ∧ Belongs i k
  request : t.requestOk = true
  images : ∀ reg, t.awaitsWriteOf reg = false → shadowImage s.cfg t.dev reg = shadowImage s.cfg s.dev reg

theorem sameField_refl (d : DeviceState) (f : DeviceField) : sameField d d f := by
  cases f <;> rfl

theorem sameField_trans {a b c : DeviceState} {f : DeviceField} (hab : sameField a b f) (hbc : sameField b c f) :
    sameField a c f := by
  cases f <;> exact Eq.trans hab hbc

section
variable {i : Instr} {s : State}

/-- An answer that stores what no register image holds. -/
theorem Sound.answer {d : DeviceState} (r : Response) (hfields : ∀ f, mayWrite i f = false → sameField s.dev d f)
    (himg : ∀ reg, shadowImage s.cfg d reg = shadowImage s.cfg s.dev reg) :
    Sound i s ({ s with dev := d }.respond r) :=
  ⟨hfields, nofun, rfl, fun reg _ => himg reg⟩

theorem Sound.respond (i : Instr) (s : State) (r : Response) : Sound i s (s.respond r) :=
  .answer (d := s.dev) r (fun f _ => sameField_refl s.dev f) fun _ => rfl

/-- A write of the image of what was stored, where the store touches no other register's image. -/
theorem Sound.write {d : DeviceState} {reg : SensorReg} {w : Word} {k : Resume}
    (hfields : ∀ f, mayWrite i f = false → sameField s.dev d f)
    (himg : ∀ r, r ≠ reg → shadowImage s.cfg d r = shadowImage s.cfg s.dev r)
    (hissue : ∀ w e, mayIssue i (.write reg w e) = true) (hk : Belongs i k)
    (hreq : ({ s with dev := d }.issue (.write reg w) k).requestOk = true) :
    Sound i s ({ s with dev := d }.issue (.write reg w) k) := by
  refine ⟨hfields, ?_, hreq, fun r hr => himg r ?_⟩
  · intro q k' hseq
    cases hseq
    exact ⟨issues_write hissue w, hk⟩
  · rintro rfl
    have hawaits : decide (r = r) = false := hr
    simp at hawaits

theorem Sound.read {d : DeviceState} {reg : SensorReg} {k : Resume}
    (hfields : ∀ f, mayWrite i f = false → sameField s.dev d f)
    (himg : ∀ r, shadowImage s.cfg d r = shadowImage s.cfg s.dev r)
    (hissue : Issues i (.read reg)) (hk : Belongs i k)
    (hreq : ({ s with dev := d }.issue (.read reg) k).requestOk = true) :
    Sound i s ({ s with dev := d }.issue (.read reg) k) := by
  refine ⟨hfields, ?_, hreq, fun r _ => himg r⟩
  intro q k' hseq
  cases hseq
  exact ⟨hissue, hk⟩

end

/-! ### The setters -/

/-- The images of the registers other than CONF do not hold CONF's fields. -/
theorem shadowImage_of_ne_conf (p : Params) {d d' : DeviceState} {reg : SensorReg} (hreg : reg ≠ .conf)
    (h : d' = { d with
      gain := d'.gain, it := d'.it, pers := d'.pers, intEn := d'.intEn, sd := d'.sd }) :
    shadowImage p d' reg = shadowImage p d reg := by
  rw [h]
  cases reg with
  | conf => exact absurd rfl hreg
  | _ => rfl

theorem shadowImage_of_ne_psm (p : Params) {d d' : DeviceState} {reg : SensorReg} (hreg : reg ≠ .psm)
    (h : d' = { d with psm := d'.psm, psmEn := d'.psmEn }) : shadowImage p d' reg = shadowImage p d reg := by
  rw [h]
  cases reg with
  | psm => exact absurd rfl hreg
  | _ => rfl

/-- An update is one the operation may make: its register has an image after it, no other image changes, and field and
write are the operation's own. -/
structure FieldUpdate.Fits (u : FieldUpdate) (i : Instr) : Prop where
  image : ∀ p d, ∃ w, shadowImage p (u.store d) u.reg = some w
  others : ∀ p d r, r ≠ u.reg → shadowImage p (u.store d) r = shadowImage p d r
  fields : ∀ d f, mayWrite i f = false → sameField d (u.store d) f
  issues : ∀ w e, mayIssue i (.write u.reg w e) = true

section
variable {i : Instr}

theorem gainUpdate_fits (g : Gain) (hfield : mayWrite i .gain = true)
    (hissue : ∀ w e, mayIssue i (.write .conf w e) = true) : (gainUpdate g).Fits i where
  image _ _ := ⟨_, rfl⟩
  others p _ _ hr := shadowImage_of_ne_conf p hr (by rfl)
  fields d f hf := by
    cases f with
    | gain => cases hfield.symm.trans hf
    | _ => rfl
  issues := hissue

theorem itUpdate_fits (t : IntegrationTime) (hfield : mayWrite i .it = true)
    (hissue : ∀ w e, mayIssue i (.write .conf w e) = true) : (itUpdate t).Fits i where
  image _ _ := ⟨_, rfl⟩
  others p _ _ hr := shadowImage_of_ne_conf p hr (by rfl)
  fields d f hf := by
    cases f with
    | it => cases hfield.symm.trans hf
    | _ => rfl
  issues := hissue

theorem persUpdate_fits (c : Persistence) (hfield : mayWrite i .pers = true)
    (hissue : ∀ w e, mayIssue i (.write .conf w e) = true) : (persUpdate c).Fits i where
  image _ _ := ⟨_, rfl⟩
  others p _ _ hr := shadowImage_of_ne_conf p hr (by rfl)
  fields d f hf := by
    cases f with
    | pers => cases hfield.symm.trans hf
    | _ => rfl
  issues := hissue

theorem psmUpdate_fits (m : PowerSavingMode) (n : Int) : (psmUpdate m).Fits (.setPsm n) where
  image _ _ := ⟨_, rfl⟩
  others p _ _ hr := shadowImage_of_ne_psm p hr (by rfl)
  fields d f hf := by
    cases f with
    | psm => cases hf
    | _ => rfl
  issues _ _ := rfl

theorem intEnUpdate_fits (b : Bool) : (intEnUpdate b).Fits (.setInten b) where
  image _ _ := ⟨_, rfl⟩
  others p _ _ hr := shadowImage_of_ne_conf p hr (by rfl)
  fields d f hf := by
    cases f with
    | intEn => cases hf
    | _ => rfl
  issues _ _ := rfl

theorem sdUpdate_fits (b : Bool) : (sdUpdate b).Fits (.setSd b) where
  image _ _ := ⟨_, rfl⟩
  others p _ _ hr := shadowImage_of_ne_conf p hr (by rfl)
  fields d f hf := by
    cases f with
    | sd => cases hf
    | _ => rfl
  issues _ _ := rfl

theorem psmEnUpdate_fits (b : Bool) : (psmEnUpdate b).Fits (.setPsmen b) where
  image _ _ := ⟨_, rfl⟩
  others p _ _ hr := shadowImage_of_ne_psm p hr (by rfl)
  fields d f hf := by
    cases f with
    | psmEn => cases hf
    | _ => rfl
  issues _ _ := rfl

theorem thrHiUpdate_fits (w : Word) (n : Int) : (thrHiUpdate w).Fits (.setThrh n) where
  image _ _ := ⟨_, rfl⟩
  others p d r hr := by
    cases r with
    | thrHi => exact absurd rfl hr
    | _ => rfl
  fields d f hf := by
    cases f with
    | thrHi => cases hf
    | _ => rfl
  issues _ _ := rfl

theorem thrLoUpdate_fits (w : Word) (n : Int) : (thrLoUpdate w).Fits (.setThrl n) where
  image _ _ := ⟨_, rfl⟩
  others p d r hr := by
    cases r with
    | thrLo => exact absurd rfl hr
    | _ => rfl
  fields d f hf := by
    cases f with
    | thrLo => cases hf
    | _ => rfl
  issues _ _ := rfl

/-- Each setter's update is one it may make. -/
theorem fits_of_setterUpdate {u : FieldUpdate} (h : setterUpdate i = some u) : u.Fits i := by
  cases i with
  | setGainE | setGainF =>
    obtain ⟨g, -, rfl⟩ := Option.map_eq_some_iff.mp h
    exact gainUpdate_fits g rfl fun _ _ => rfl
  | setItE | setItF =>
    obtain ⟨t, -, rfl⟩ := Option.map_eq_some_iff.mp h
    exact itUpdate_fits t rfl fun _ _ => rfl
  | setPersE | setPersF =>
    obtain ⟨c, -, rfl⟩ := Option.map_eq_some_iff.mp h
    exact persUpdate_fits c rfl fun _ _ => rfl
  | setPsm n =>
    obtain ⟨m, -, rfl⟩ := Option.map_eq_some_iff.mp h
    exact psmUpdate_fits m n
  | setInten b => cases h; exact intEnUpdate_fits b
  | setSd b => cases h; exact sdUpdate_fits b
  | setPsmen b => cases h; exact psmEnUpdate_fits b
  | setThrh n => cases h; exact thrHiUpdate_fits _ n
  | setThrl n => cases h; exact thrLoUpdate_fits _ n
  | _ => cases h

/-- A changed value, stored, and its register's image on the bus. -/
theorem run_of_changed {u : FieldUpdate} {s : State} {w : Word} (h : u.holds s.dev = false)
    (hw : shadowImage s.cfg (u.store s.dev) u.reg = some w) :
    u.run s = { s with dev := u.store s.dev }.issue (.write u.reg w) .respond := by
  rw [FieldUpdate.run, h, setField_changed s _ _ hw]

theorem Sound.run {u : FieldUpdate} (hu : u.Fits i) (s : State) : Sound i s (u.run s) := by
  cases h : u.holds s.dev with
  | true => exact run_of_holds h ▸ .respond i s _
  | false =>
    obtain ⟨w, hw⟩ := hu.image s.cfg s.dev
    rw [run_of_changed h hw]
    exact .write (hu.fields s.dev) (hu.others s.cfg s.dev) hu.issues trivial (decide_eq_true hw)

end

/-! ### The other commands and their places -/

theorem Sound.setPowerSaving (status : Nat) (s : State) (e : Bool) (m : PowerSavingMode) :
    Sound (.setPower status) s (s.setPowerSaving e m) := by
  unfold State.setPowerSaving
  cases decide (s.dev.psmEn = e ∧ s.dev.psm = m) with
  | true => exact .respond _ s _
  | false =>
    rw [setField_changed s _ .psm rfl]
    refine .write (fun f hf => ?_) (fun r hr => shadowImage_of_ne_psm s.cfg hr (by rfl)) (fun _ _ => rfl) trivial
      (decide_eq_true rfl)
    cases f with
    | psm | psmEn => cases hf
    | _ => rfl

theorem Sound.setPower (status : Nat) (s : State) (p : PowerStatus) : Sound (.setPower status) s (s.setPower p) := by
  unfold State.setPower
  dsimp only
  split
  · exact .setPowerSaving status s _ _
  · rw [writeImage_conf]
    refine .write (fun f hf => ?_) (fun r hr => shadowImage_of_ne_conf s.cfg hr (by rfl)) (fun _ _ => rfl) ⟨status, rfl⟩
      (decide_eq_true rfl)
    cases f with
    | sd => cases hf
    | _ => rfl

/-- CALIBRATE adjusts the gain or the integration time and nothing else. -/
theorem calibrateAdjustment_fields {d d' : DeviceState} {w : Word} (h : calibrateAdjustment d w = some d') :
    d' = { d with gain := d'.gain, it := d'.it } := by
  have hgain : ∀ g : Option Gain, steppedGain d g = some d' → d' = { d with gain := d'.gain, it := d'.it } := by
    intro g hg
    obtain ⟨v, -, rfl⟩ := Option.map_eq_some_iff.mp hg
    rfl
  have hit : ∀ t : Option IntegrationTime, steppedIt d t = some d' → d' = { d with gain := d'.gain, it := d'.it } := by
    intro t ht
    obtain ⟨v, -, rfl⟩ := Option.map_eq_some_iff.mp ht
    rfl
  unfold calibrateAdjustment at h
  split at h
  · cases h
  all_goals
    split_ifs at h
    · exact hit _ h
    · exact hgain _ h
    · exact hit _ h

/-- CALIBRATE's judgment, with the count stored. -/
theorem Sound.judge (s : State) (w : Word) :
    Sound .calibrate s ({ s with dev := { s.dev with als := some w } }.judge w) := by
  have hals : ∀ f, mayWrite .calibrate f = false → sameField s.dev { s.dev with als := some w } f := by
    intro f hf
    cases f with
    | als => cases hf
    | _ => rfl
  have himg : ∀ reg, shadowImage s.cfg { s.dev with als := some w } reg = shadowImage s.cfg s.dev reg := by
    intro reg
    cases reg <;> rfl
  obtain ⟨-, h⟩ | ⟨d, hd, h⟩ := judge_cases { s with dev := { s.dev with als := some w } } w
  · exact h ▸ .answer _ hals himg
  · rw [h]
    have hfields := calibrateAdjustment_fields hd
    refine .write (fun f hf => sameField_trans (hals f hf) ?_)
      (fun r hr => (shadowImage_of_ne_conf s.cfg hr (by rw [hfields])).trans (himg r)) (fun _ _ => rfl) rfl
      (decide_eq_true rfl)
    rw [hfields]
    cases f with
    | gain | it => cases hf
    | _ => rfl

/-- An answered read or write of its own: the operation goes on soundly. -/
theorem Sound.resumeWith {i : Instr} {k : Resume} (hk : Belongs i k) (s : State) (w : Word) :
    Sound i s (s.resumeWith k w) := by
  cases k with
  | respond => exact .respond i s _
  | powerSaving e m =>
    obtain ⟨status, rfl⟩ := hk
    exact .setPowerSaving status s e m
  | sampleAls readWhite =>
    obtain rfl : i = .sample true readWhite := hk
    have hfields : ∀ f, mayWrite (.sample true readWhite) f = false →
        sameField s.dev { s.dev with als := some w } f := by
      intro f hf
      cases f with
      | als => cases hf
      | _ => rfl
    have himg : ∀ reg, shadowImage s.cfg { s.dev with als := some w } reg = shadowImage s.cfg s.dev reg := by
      intro reg
      cases reg <;> rfl
    cases readWhite with
    | true => exact .read hfields himg (fun _ => rfl) rfl rfl
    | false => exact .answer _ hfields himg
  | sampleWhite readAls =>
    obtain rfl : i = .sample readAls true := hk
    refine .answer _ (fun f hf => ?_) (fun reg => by cases reg <;> rfl)
    cases f with
    | white => cases hf
    | _ => rfl
  | calibrateSampling =>
    obtain rfl : i = .calibrate := hk
    exact .judge s w
  | calibrateAdjusting =>
    obtain rfl : i = .calibrate := hk
    exact .read (d := s.dev) (fun f _ => sameField_refl s.dev f) (fun _ => rfl) (fun _ => rfl) rfl rfl
  | pollEvent =>
    obtain rfl : i = .pollEvent := hk
    refine .answer _ (fun f hf => ?_) (fun reg => by cases reg <;> rfl)
    cases f with
    | event => cases hf
    | _ => rfl

theorem Sound.complete {i : Instr} {k : Resume} (hk : Belongs i k) (s : State) (q : Request) (a : Answer) :
    Sound i (s.record q a) (s.complete q k a) := by
  cases a with
  | ok w => exact .resumeWith hk _ w
  | err e => exact .respond i _ _

/-- A step primitive is its ladder's update. -/
theorem Sound.stepTo {i : Instr} {α : Type} {s : State} (o : Option α) {k : α → State → State} (f : α → FieldUpdate)
    (hk : ∀ v, k v s = (f v).run s) (hfits : ∀ v, (f v).Fits i) : Sound i s (stepTo o k s) := by
  cases o with
  | none => exact .respond i s _
  | some v =>
    show Sound i s (k v s)
    rw [hk v]
    exact .run (hfits v) s

/-- Every command starts soundly. -/
theorem Sound.started {i : Instr} (hi : isBusRow i = false) (s : State) : Sound i s (started i s) := by
  rcases command_kinds hi with hpure | hset | ⟨k, rfl⟩ | ⟨readAls, readWhite, rfl⟩ | rfl | rfl | rfl | rfl | rfl | rfl
  · obtain ⟨r, hr⟩ := started_pure hpure s
    exact hr ▸ .respond i s r
  · rw [started_setter hset]
    cases hu : setterUpdate i with
    | none => exact .respond i s _
    | some u => exact .run (fits_of_setterUpdate hu) s
  · show Sound _ s (withValue (powerOfCode k) (fun p s => s.setPower p) s)
    cases powerOfCode k with
    | none => exact .respond _ s _
    | some p => exact .setPower k s p
  · have hfields : ∀ f, mayWrite (.sample readAls readWhite) f = false → sameField s.dev s.dev f :=
      fun f _ => sameField_refl s.dev f
    cases readAls with
    | true => exact .read hfields (fun _ => rfl) (fun _ => rfl) rfl rfl
    | false =>
      cases readWhite with
      | true => exact .read hfields (fun _ => rfl) (fun _ => rfl) rfl rfl
      | false => exact .respond _ s _
  · exact .stepTo _ gainUpdate (fun _ => rfl) fun g => gainUpdate_fits g rfl fun _ _ => rfl
  · exact .stepTo _ gainUpdate (fun _ => rfl) fun g => gainUpdate_fits g rfl fun _ _ => rfl
  · exact .stepTo _ itUpdate (fun _ => rfl) fun t => itUpdate_fits t rfl fun _ _ => rfl
  · exact .stepTo _ itUpdate (fun _ => rfl) fun t => itUpdate_fits t rfl fun _ _ => rfl
  · exact .read (d := s.dev) (fun f _ => sameField_refl s.dev f) (fun _ => rfl) (fun _ => rfl) rfl rfl
  · rw [started_pollEvent]
    split
    case isTrue hie =>
      exact .read (d := s.dev) (fun f _ => sameField_refl s.dev f) (fun _ => rfl) (fun _ => rfl) rfl hie
    case isFalse => exact .respond _ s _

end Sys2Proof.Proofs

/-! The run of one operation and the step of the machine: the invariant, the agreement of the sensor with the shadow,
that nothing stops the machine, and the statements on fields, transactions and late answers. -/

namespace Sys2Proof.Proofs
open Sys2Proof Sys2Proof.Machine Sys2Proof.Laws

/-! ### One answered transaction -/

/-- An answered transaction keeps the sensor list canonical. -/
theorem wf_complete {s : State} {q : Request} {k : Resume} (a : Answer) (hreq : s.requestOk = true)
    (hseq : s.seq = .waiting q k) (h : Memory.wf s.sensor = true) : Memory.wf (s.complete q k a).sensor = true := by
  have hsensor : (s.complete q k a).sensor = sensorAfter q a s.sensor := (Turn.complete s q k a).sensor
  rw [hsensor]
  refine wf_sensorAfter q a h fun reg w hq => regKey_lt_of_image (image_of_requestOk hreq (hq ▸ hseq))

/-- An answered transaction, sound for its operation, keeps what is known of the sensor in agreement with S: the
register written holds the image, or nothing known, and every other one is as it was. -/
theorem shadowAgrees_complete {s : State} {q : Request} {k : Resume} {i : Instr} (a : Answer)
    (hsound : Sound i (s.record q a) (s.complete q k a)) (hreq : s.requestOk = true)
    (hseq : s.seq = .waiting q k) (hwf : Memory.wf s.sensor = true) (h : s.shadowAgrees) :
    (s.complete q k a).shadowAgrees := by
  intro reg w hholds hawaits
  have hprogress := Progress.of_turn (Turn.complete s q k a)
  have hsensor : (s.complete q k a).sensor = sensorAfter q a s.sensor := (Turn.complete s q k a).sensor
  have himg : shadowImage s.cfg (s.complete q k a).dev reg = shadowImage s.cfg s.dev reg := hsound.images reg hawaits
  rw [hprogress.cfg, record_cfg, himg]
  rw [State.sensorHolds, hsensor] at hholds
  have hkept : sensorRead (sensorAfter q a s.sensor) (regKey reg) = s.sensorHolds reg →
      s.awaitsWriteOf reg = false → shadowImage s.cfg s.dev reg = some w := by
    intro hsame hnot
    exact h reg w (hsame ▸ hholds) hnot
  cases q with
  | read r => exact hkept (by cases a <;> rfl) (by rw [State.awaitsWriteOf, hseq])
  | write r v =>
    by_cases hr : r = reg
    · subst hr
      cases a with
      | ok x =>
        rw [sensorAfter, sensorRead_write_same] at hholds
        cases hholds
        exact image_of_requestOk hreq hseq
      | err e =>
        simp only [Memory.wf, Bool.and_eq_true] at hwf
        rw [sensorAfter, sensorRead_forget_same _ hwf.1] at hholds
        cases hholds
    · have hkey : regKey reg ≠ regKey r := fun hk => hr (regKey_injective hk).symm
      refine hkept ?_ (by rw [State.awaitsWriteOf, hseq]; exact decide_eq_false hr)
      cases a with
      | ok x => exact sensorRead_write_other _ _ _ v hkey
      | err e => exact sensorRead_forget_other _ _ _ hkey

/-! ### The run of one operation -/

/-- `t` is a stop of operation `i` that started from `s`. -/
structure Flight (i : Instr) (s t : State) : Prop where
  fields : ∀ f, mayWrite i f = false → sameField s.dev t.dev f
  own : ∀ q k, t.seq = .waiting q k → Issues i q ∧ Belongs i k
  request : t.requestOk = true
  trace : ∃ new, t.trace = s.trace ++ new ∧ ∀ e ∈ new, mayIssue i e = true
  wf : Memory.wf s.sensor = true → Memory.wf t.sensor = true
  agrees : Memory.wf s.sensor = true → s.shadowAgrees → t.shadowAgrees

section
variable {i : Instr} {s t : State}

theorem Flight.started (hi : isBusRow i = false) (hs : s.seq = .idle) : Flight i s (started i s) := by
  have hsound := Sound.started hi s
  have hturn := Turn.started hi s
  refine ⟨hsound.fields, hsound.own, hsound.request, ⟨[], by simp [hturn.trace], nofun⟩,
    fun h => hturn.sensor ▸ h, ?_⟩
  intro _ h reg w hholds hawaits
  rw [(Progress.of_turn hturn).cfg, hsound.images reg hawaits]
  rw [State.sensorHolds, hturn.sensor] at hholds
  exact h reg w hholds (by rw [State.awaitsWriteOf, hs])

theorem Flight.complete {q : Request} {k : Resume} (a : Answer) (hseq : t.seq = .waiting q k) (h : Flight i s t) :
    Flight i s (t.complete q k a) := by
  obtain ⟨hissue, hbelongs⟩ := h.own q k hseq
  have hsound := Sound.complete hbelongs t q a
  obtain ⟨new, hnew, hmay⟩ := h.trace
  refine ⟨fun f hf => sameField_trans (h.fields f hf) (hsound.fields f hf), hsound.own, hsound.request,
    ⟨new ++ [busEvent q a], ?_, ?_⟩, fun hwf => wf_complete a h.request hseq (h.wf hwf),
    fun hwf hs => shadowAgrees_complete a hsound h.request hseq (h.wf hwf) (h.agrees hwf hs)⟩
  · rw [(Turn.complete t q k a).trace, record_trace, hnew, List.append_assoc]
  · intro e he
    rcases List.mem_append.mp he with he | he
    · exact hmay e he
    · exact List.mem_singleton.mp he ▸ hissue a

theorem Flight.driveWith (as : List Answer) (h : Flight i s t) : Flight i s (driveWith as t) :=
  driveWith_keeps (P := Flight i s)
    (fun _ _ h => ⟨h.fields, h.own, h.request, h.trace, h.wf, h.agrees⟩)
    (fun _ _ _ a hseq h => h.complete a hseq) as t h

theorem Flight.exec (hs : s.seq = .idle) (h : exec i s = .next t) : Flight i s t := by
  obtain ⟨hi, rfl⟩ := exec_next_idle hs h
  exact (Flight.started hi hs).driveWith _

/-- An operation in flight, taken up where it waits. -/
theorem Flight.of_waiting {q : Request} {k : Resume} (hreq : s.requestOk = true) (hseq : s.seq = .waiting q k) :
    ∃ i, Flight i s s := by
  obtain ⟨i, hissue, hbelongs⟩ := exists_owner hreq hseq
  refine ⟨i, fun f _ => sameField_refl s.dev f, ?_, hreq, ⟨[], by simp, nofun⟩, id, fun _ h => h⟩
  intro q' k' hseq'
  rw [hseq] at hseq'
  cases hseq'
  exact ⟨hissue, hbelongs⟩

end

/-- Settles O57: the fields along the run (`Flight`). -/
theorem onlyNamedOperationsWriteAField : Obligations.OnlyNamedOperationsWriteAField :=
  fun _ _ _ f hs hexec hf => (Flight.exec hs hexec).fields f hf

/-- Settles O58: the trace along the run (`Flight`). -/
theorem onlyItsOwnTransactions : Obligations.OnlyItsOwnTransactions :=
  fun _ _ _ hs hexec => (Flight.exec hs hexec).trace

/-! ### The transaction of a step -/

/-- The word with which a bus row answers its transaction: a write's `ok` carries none (log 12). -/
def okWord : Request → Word → Word
  | .read _, w => w
  | .write _ _, _ => 0#16

/-- The row that the block fetches for an outstanding transaction. -/
theorem transactionInstr_of_outstandingFor {i : Instr} {q : Request} {k : Resume} {w : Word}
    (h : outstandingFor i = some (.waiting q k, w)) : transactionInstr q w = some i := by
  have henc : encode i = .bus (transactionRow q w) := by cases i <;> cases h <;> rfl
  have hwf : i.wf = true := by cases i <;> cases h <;> rfl
  have hdec : decode (encode i) = .ok i := decodeOfEncode i hwf
  rw [henc] at hdec
  have hrow : (decodeBus (transactionRow q w)).toOption = some i :=
    congrArg Except.toOption (hdec : decodeBus (transactionRow q w) = .ok i)
  cases i with
  | busConf | busThrHi | busThrLo | busPsm | busAls | busWhite | busInt =>
    cases h
    simp only [transactionInstr, hrow]
  | _ => cases h

/-- The instruction fetched for a transaction is the row of its 24 bits. -/
theorem decodeBus_of_transactionInstr {q : Request} {w : Word} {i : Instr} (h : transactionInstr q w = some i) :
    decodeBus (transactionRow q w) = .ok i := by
  unfold transactionInstr at h
  cases hdec : decodeBus (transactionRow q w) with
  | ok j =>
    rw [hdec] at h
    have hj : some j = some i := by
      cases q with
      | read reg =>
        cases reg with
        | als | white | int => exact h
        | conf | thrHi | thrLo | psm => cases h
      | write reg v =>
        cases reg with
        | conf | thrHi | thrLo | psm => exact h
        | als | white | int => cases h
    rw [Option.some.inj hj]
  | error e =>
    rw [hdec] at h
    cases q with
    | read reg => cases reg <;> cases h
    | write reg v => cases reg <;> cases h

/-- Every legal outstanding transaction is fetched as the bus row that answers it. -/
theorem exists_transactionInstr {s : State} {q : Request} {k : Resume} (hreq : s.requestOk = true)
    (hseq : s.seq = .waiting q k) (w : Word) :
    ∃ i, transactionInstr q w = some i ∧ ∀ s : State, exec i s = s.transact q (okWord q w) := by
  have key : ∀ (i : Instr) (k : Resume), outstandingFor i = some (.waiting q k, okWord q w) →
      transactionInstr q w = some i ∧ ∀ s : State, exec i s = s.transact q (okWord q w) := by
    intro i k h
    refine ⟨?_, exec_busRow h⟩
    rw [← transactionInstr_of_outstandingFor h]
    cases q <;> rfl
  rcases requestOk_cases hreq hseq with ⟨reg, v, rfl, himg, -⟩ | ⟨rfl, -⟩ | ⟨rfl, -⟩ | ⟨rfl, -⟩
  · cases reg with
    | conf =>
      have hv : confLayout s.cfg s.dev = v := (confImage_eq_layout _ _).symm.trans (Option.some.inj himg)
      subst hv
      exact ⟨_, key (.busConf _ _ _ _ _) .respond rfl⟩
    | psm =>
      have hv : psmLayout s.cfg s.dev = v := (psmImage_eq_layout _ _).symm.trans (Option.some.inj himg)
      subst hv
      exact ⟨_, key (.busPsm _ _) .respond rfl⟩
    | thrHi => exact ⟨_, key (.busThrHi v) .respond rfl⟩
    | thrLo => exact ⟨_, key (.busThrLo v) .respond rfl⟩
    | als | white | int => cases himg
  · exact ⟨_, key (.busAls w) (.sampleAls false) rfl⟩
  · exact ⟨_, key (.busWhite w) (.sampleWhite false) rfl⟩
  · refine ⟨_, key (.busInt (w.extractLsb' 14 2) (w.extractLsb' 0 14)) .pollEvent ?_⟩
    have hw : intOfFields (w.extractLsb' 14 2) (w.extractLsb' 0 14) = w := append_extract (m := 2) (n := 14) w
    rw [outstandingFor, hw, okWord]

/-- A write's `ok` is the same whatever word it carries. -/
theorem complete_okWord {s : State} {q : Request} {k : Resume} (hreq : s.requestOk = true)
    (hseq : s.seq = .waiting q k) (u : State) (w : Word) :
    u.complete q k (.ok (okWord q w)) = u.complete q k (.ok w) := by
  rcases requestOk_cases hreq hseq with
    ⟨reg, v, rfl, -, rfl | ⟨-, ⟨e, m, rfl⟩ | rfl⟩⟩ | ⟨rfl, -⟩ | ⟨rfl, -⟩ | ⟨rfl, -⟩ <;> rfl

/-- The step of a block whose legal transaction is answered: the operation goes on, driven. -/
theorem step_waiting {s : State} {q : Request} {k : Resume} {a : Answer} {rest : List Answer}
    (hreset : s.resetIn = false) (hreq : s.requestOk = true) (hseq : s.seq = .waiting q k)
    (hans : s.answers = a :: rest) : step s = .next (driveWith rest (s.complete q k a)) := by
  cases a with
  | err e =>
    have hf : fetch s = .failed q k e { s with answers := rest } := by simp [fetch, hreset, hseq, hans]
    rw [step, hf, driveWith_idle rest (by rfl)]
    rfl
  | ok w =>
    obtain ⟨i, hi, hexec⟩ := exists_transactionInstr hreq hseq w
    have hf : fetch s = .run i { s with answers := rest } := by simp [fetch, hreset, hseq, hans, hi]
    rw [step, hf]
    show exec i { s with answers := rest } = _
    have hseq' : ({ s with answers := rest } : State).seq = .waiting q k := hseq
    rw [hexec, transact_waiting _ hseq', complete_answers, complete_okWord hreq hseq, State.drive, driveWith_answers]

/-- Everything the step does from a state whose outstanding transaction is legal. -/
theorem step_cases {s : State} (hreq : s.requestOk = true) :
    (s.resetIn = true ∧ step s = .next s.hardReset) ∨ step s = .next s ∨
    (∃ rest, s.seq = .idle ∧ step s = .next ({ s with cmds := rest }.raise .illegalCommand)) ∨
    (∃ i rest, s.seq = .idle ∧ isBusRow i = false ∧
      step s = .next (started i { s with cmds := rest }).drive) ∨
    (∃ q k a rest, s.seq = .waiting q k ∧ step s = .next (driveWith rest (s.complete q k a))) := by
  rcases Bool.eq_false_or_eq_true s.resetIn with hreset | hreset
  · exact .inl ⟨hreset, step_reset hreset⟩
  · right
    rcases seq_cases s.seq with hseq | ⟨q, k, hseq⟩
    · cases hcmds : s.cmds with
      | nil => exact .inl (by simp [step, fetch, hreset, hseq, hcmds])
      | cons w rest =>
        cases hdec : decodeCommand w with
        | error e => exact .inr (.inl ⟨rest, hseq, by simp [step, fetch, hreset, hseq, hcmds, hdec]⟩)
        | ok i =>
          have hi := isBusRow_of_decodeCommand hdec
          refine .inr (.inr (.inl ⟨i, rest, hseq, hi, ?_⟩))
          have hf : fetch s = .run i { s with cmds := rest } := by simp [fetch, hreset, hseq, hcmds, hdec]
          rw [step, hf]
          exact exec_idle i hi hseq
    · cases hans : s.answers with
      | nil => exact .inl (by simp [step, fetch, hreset, hseq, hans])
      | cons a rest => exact .inr (.inr (.inr ⟨q, k, a, rest, hseq, step_waiting hreset hreq hseq hans⟩))

theorem inv_iff (s : State) : s.inv = true ↔ Memory.wf s.sensor = true ∧ s.requestOk = true := by
  rw [State.inv, Bool.and_eq_true]

/-- Settles O51: nothing is known of the sensor, and nothing is outstanding. -/
theorem invariantAtReset : Obligations.InvariantAtReset := by
  unfold Obligations.InvariantAtReset
  decide

/-- Settles O53: each of the step's cases is a next state. -/
theorem stepNeverStops : Obligations.StepNeverStops := by
  intro s hinv
  rcases step_cases ((inv_iff s).mp hinv).2 with ⟨-, h⟩ | h | ⟨_, -, h⟩ | ⟨_, _, -, -, h⟩ | ⟨_, _, _, _, -, h⟩ <;>
    exact ⟨_, h⟩

/-- Settles O52: a command starts soundly and an operation in flight goes on soundly (`Flight`). -/
theorem stepKeepsInvariant : Obligations.StepKeepsInvariant := by
  intro s t hinv hstep
  obtain ⟨hwf, hreq⟩ := (inv_iff s).mp hinv
  rw [inv_iff]
  rcases step_cases hreq with ⟨-, h⟩ | h | ⟨rest, hseq, h⟩ | ⟨i, rest, hseq, hi, h⟩ | ⟨q, k, a, rest, hseq, h⟩ <;>
    (rw [h] at hstep; cases hstep)
  · exact ⟨wf_sensorAfterAbandon s.seq hwf, rfl⟩
  · exact ⟨hwf, hreq⟩
  · exact ⟨hwf, rfl⟩
  · have hstarted := Flight.started (s := { s with cmds := rest }) hi hseq
    have hflight := hstarted.driveWith (started i { s with cmds := rest }).answers
    exact ⟨hflight.wf hwf, hflight.request⟩
  · obtain ⟨i, hflight⟩ := Flight.of_waiting hreq hseq
    have hflight := (hflight.complete a hseq).driveWith rest
    exact ⟨hflight.wf hwf, hflight.request⟩

/-- Settles O54: the run keeps the agreement (`Flight`), and nothing else in a step without reset touches S or what is
known of the sensor. -/
theorem shadowAgreementIsKept : Obligations.ShadowAgreementIsKept := by
  intro s t hreset hinv hagrees hstep
  obtain ⟨hwf, hreq⟩ := (inv_iff s).mp hinv
  rcases step_cases hreq with ⟨hr, -⟩ | h | ⟨rest, hseq, h⟩ | ⟨i, rest, hseq, hi, h⟩ | ⟨q, k, a, rest, hseq, h⟩
  · exact absurd hr (by simp [hreset])
  all_goals (rw [h] at hstep; cases hstep)
  · exact hagrees
  · intro reg w hholds _
    exact hagrees reg w hholds (by rw [State.awaitsWriteOf, hseq])
  · have hstarted := Flight.started (s := { s with cmds := rest }) hi hseq
    have hflight := hstarted.driveWith (started i { s with cmds := rest }).answers
    exact hflight.agrees hwf hagrees
  · obtain ⟨i, hflight⟩ := Flight.of_waiting hreq hseq
    exact ((hflight.complete a hseq).driveWith rest).agrees hwf hagrees

/-! ### Late answers -/

section
variable (s : State) (as : List Answer)

theorem withValue_answers {α : Type} (o : Option α) {k : α → State → State}
    (h : ∀ v, k v { s with answers := as } = { k v s with answers := as }) :
    withValue o k { s with answers := as } = { withValue o k s with answers := as } := by
  cases o with
  | some v => exact h v
  | none => rfl

theorem withData_answers {α : Type} (o : Option α) {k : α → State → State}
    (h : ∀ v, k v { s with answers := as } = { k v s with answers := as }) :
    withData o k { s with answers := as } = { withData o k s with answers := as } := by
  cases o with
  | some v => exact h v
  | none => rfl

theorem withValue_finish_answers {α : Type} (o : Option α) (f : α → Arg) :
    withValue o (fun v s => s.finish (f v)) { s with answers := as } =
      { withValue o (fun v s => s.finish (f v)) s with answers := as } :=
  withValue_answers s as (k := fun v s => s.finish (f v)) o fun _ => rfl

theorem withData_finish_answers {α : Type} (o : Option α) (f : α → Arg) :
    withData o (fun v s => s.finish (f v)) { s with answers := as } =
      { withData o (fun v s => s.finish (f v)) s with answers := as } :=
  withData_answers s as (k := fun v s => s.finish (f v)) o fun _ => rfl

theorem stepTo_answers {α : Type} (o : Option α) {k : α → State → State}
    (h : ∀ v, k v { s with answers := as } = { k v s with answers := as }) :
    stepTo o k { s with answers := as } = { stepTo o k s with answers := as } := by
  cases o with
  | some v => exact h v
  | none => rfl

theorem writeImage_answers (reg : SensorReg) (k : Resume) :
    ({ s with answers := as } : State).writeImage reg k = { s.writeImage reg k with answers := as } := by
  simp only [State.writeImage]
  cases shadowImage s.cfg s.dev reg <;> rfl

theorem setField_answers (unchanged : Bool) (d : DeviceState) (reg : SensorReg) :
    ({ s with answers := as } : State).setField unchanged d reg =
      { s.setField unchanged d reg with answers := as } := by
  cases unchanged with
  | true => rfl
  | false => exact writeImage_answers { s with dev := d } as reg .respond

theorem setPower_answers (p : PowerStatus) :
    ({ s with answers := as } : State).setPower p = { s.setPower p with answers := as } := by
  simp only [State.setPower]
  split
  · exact setField_answers s as _ _ _
  · rfl

/-- A command does not look at the answers to come before its first transaction. -/
theorem started_answers {i : Instr} (hi : isBusRow i = false) :
    started i { s with answers := as } = { started i s with answers := as } := by
  cases i with
  | busConf | busThrHi | busThrLo | busPsm | busAls | busWhite | busInt => exact absurd hi Bool.true_eq_false.mp
  | setGainE | setGainF | setItE | setItF | setPersE | setPersF | setPsm =>
    exact withValue_answers s as _ fun _ => setField_answers s as _ _ _
  | setInten | setSd | setPsmen | setThrh | setThrl => exact setField_answers s as _ _ _
  | setPower => exact withValue_answers s as (k := fun p s => s.setPower p) _ fun p => setPower_answers s as p
  | gainUp | gainDn | itUp | itDn => exact stepTo_answers s as _ fun _ => setField_answers s as _ _ _
  | packGainE | packGainF | packItE | packItF | packPersE | packPersF | packPsm =>
    exact withValue_answers s as _ fun _ => rfl
  | unpackGain | unpackIt | unpackPers | unpackPsm | hlc | raw2lux => exact withValue_finish_answers s as _ _
  | getThrh | getThrl | getAls | getWhite | getEvent | isOvf | isUnf | classify =>
    exact withData_finish_answers s as _ _
  | lux =>
    exact withData_answers s as (k := fun w s => finishLux (resultWord w) (rawToLux s.cfg s.dev w) s) _
      fun _ => withValue_finish_answers s as _ _
  | refresh =>
    simp only [started]
    cases refreshMillis s.cfg s.dev <;> rfl
  | sample readAls readWhite => cases readAls <;> cases readWhite <;> rfl
  | pollEvent =>
    simp only [started_pollEvent]
    split <;> rfl
  | _ => rfl

end

/-- A command driven against given answers. -/
theorem exec_with_answers {i : Instr} (hi : isBusRow i = false) {s : State} (hs : s.seq = .idle) (as : List Answer) :
    exec i { s with answers := as } = .next (driveWith as (started i s)) := by
  have hs' : ({ s with answers := as } : State).seq = .idle := hs
  rw [exec_idle i hi hs', State.drive, started_answers s as hi, driveWith_answers]

/-- Settles O56: the waiting state is the drive of the same started operation against the first answers, and driving is
driving on (`driveWith_append`). -/
theorem lateAnswersChangeNothing : Obligations.LateAnswersChangeNothing := by
  intro i s t as rest a hs hreset hexec hwait
  have hs' : ({ s with answers := as } : State).seq = .idle := hs
  have hflight := Flight.exec hs' hexec
  obtain ⟨hi, -⟩ := exec_next_idle hs' hexec
  have hresetIn : t.resetIn = false := (oneResponsePerOperation i _ t hs' hexec).2.1.trans hreset
  rcases seq_cases t.seq with hidle | ⟨q, k, hseq⟩
  · exact absurd hidle hwait
  have ht : driveWith as (started i s) = t := Host.Outcome.next.inj ((exec_with_answers hi hs as).symm.trans hexec)
  calc step { t with answers := a :: rest }
      = .next (driveWith rest (({ t with answers := a :: rest } : State).complete q k a)) :=
        step_waiting hresetIn hflight.request hseq rfl
    _ = .next (driveWith rest (t.complete q k a)) := by rw [complete_answers, driveWith_answers]
    _ = .next (driveWith (as ++ a :: rest) (started i s)) := by
        rw [driveWith_append, ht, hseq, ← driveWith_waiting a rest hseq]
    _ = exec i { s with answers := as ++ a :: rest } := (exec_with_answers hi hs _).symm

end Sys2Proof.Proofs

/-! The ports of the machine (70_reset_and_hazards section 1, 30_encoding sections 6 and 7): reset, illegal commands,
failed transactions, waiting, and the instruction a step runs. -/

namespace Sys2Proof.Proofs
open Sys2Proof Sys2Proof.Machine Sys2Proof.Laws

section
variable {s : State}

/-! ### What the fetch finds -/

theorem fetch_command {w : Command} {rest : List Command} {i : Instr} (hreset : s.resetIn = false)
    (hseq : s.seq = .idle) (hcmds : s.cmds = w :: rest) (hdec : decodeCommand w = .ok i) :
    fetch s = .run i { s with cmds := rest } := by
  simp [fetch, hreset, hseq, hcmds, hdec]

theorem fetch_illegal {w : Command} {rest : List Command} {e : DecodeError} (hreset : s.resetIn = false)
    (hseq : s.seq = .idle) (hcmds : s.cmds = w :: rest) (hdec : decodeCommand w = .error e) :
    fetch s = .illegal { s with cmds := rest } := by
  simp [fetch, hreset, hseq, hcmds, hdec]

theorem fetch_transaction {q : Request} {k : Resume} {w : Word} {rest : List Answer} {i : Instr}
    (hreset : s.resetIn = false) (hseq : s.seq = .waiting q k) (hans : s.answers = .ok w :: rest)
    (hi : transactionInstr q w = some i) : fetch s = .run i { s with answers := rest } := by
  simp [fetch, hreset, hseq, hans, hi]

theorem fetch_failed {q : Request} {k : Resume} {e : TransportError} {rest : List Answer}
    (hreset : s.resetIn = false) (hseq : s.seq = .waiting q k) (hans : s.answers = .err e :: rest) :
    fetch s = .failed q k e { s with answers := rest } := by
  simp [fetch, hreset, hseq, hans]

theorem step_run {i : Instr} {u : State} (h : fetch s = .run i u) : step s = exec i u := by
  rw [step, h]

/-- What is known of a register when a write of it may have failed: nothing, and of every other as before. -/
theorem sensorRead_forgotten {cells : List SensorCell} (hwf : Memory.wf cells = true) (r reg : SensorReg) :
    sensorRead (sensorForget cells (regKey r)) (regKey reg) =
      if decide (r = reg) then none else sensorRead cells (regKey reg) := by
  by_cases hr : r = reg
  · subst hr
    simp only [Memory.wf, Bool.and_eq_true] at hwf
    rw [sensorRead_forget_same _ hwf.1]
    simp
  · rw [sensorRead_forget_other _ _ _ fun hk => hr (regKey_injective hk).symm]
    simp [hr]

end

/-! ### The statements -/

/-- Settles O1: the reset state, field by field. -/
theorem resetState : Obligations.ResetState :=
  ⟨rfl, rfl, rfl, rfl, rfl, rfl, rfl, rfl, rfl, rfl, rfl, rfl, rfl, fun _ => rfl, rfl⟩

/-- Settles O2: the reset comes before either port; only the register of an abandoned write is forgotten. -/
theorem resetInputAbandons : Obligations.ResetInputAbandons := by
  intro s hreset hwf
  refine ⟨s.hardReset, step_reset hreset, rfl, rfl, rfl, rfl, rfl, rfl, rfl, rfl, fun reg => ?_⟩
  rw [State.sensorHolds, hardReset_sensor, State.awaitsWriteOf]
  cases s.seq with
  | idle => rfl
  | waiting q k =>
    cases q with
    | read r => rfl
    | write r w => exact sensorRead_forgotten hwf r reg

/-- Settles O3: the fetch takes the head of the command port, or the answer to the outstanding transaction, whose row
is the one instruction its 24 bits decode to. -/
theorem stepRunsTheInstruction : Obligations.StepRunsTheInstruction := by
  refine ⟨fun s w rest i hreset hseq hcmds hdec => step_run (fetch_command hreset hseq hcmds hdec), ?_⟩
  intro s q k w rest i hreset hseq hreq hans hdec
  obtain ⟨j, hj, -⟩ := exists_transactionInstr hreq hseq w
  have hrow : decodeBus (transactionRow q w) = .ok i := hdec
  rw [decodeBus_of_transactionInstr hj] at hrow
  cases hrow
  exact step_run (fetch_transaction hreset hseq hans hj)

/-- Settles O4: a word outside the table does not decode (`decodeCommand_ok_iff`). -/
theorem illegalCommandAnswered : Obligations.IllegalCommandAnswered := by
  intro s w rest hreset hseq hcmds hrows
  cases hdec : decodeCommand w with
  | ok i =>
    obtain ⟨row, hrow, hmatch⟩ := (decodeCommand_ok_iff w).mp ⟨i, hdec⟩
    exact absurd hmatch (hrows row hrow)
  | error e =>
    rw [step, fetch_illegal hreset hseq hcmds hdec]
    exact congrArg Host.Outcome.next (respond_of_idle { s with cmds := rest } _ hseq)

/-- Settles O5: the failed transaction enters the trace and the one shared operation of 60_exceptions R226 answers. -/
theorem transportErrorEndsTheOperation : Obligations.TransportErrorEndsTheOperation := by
  intro s q k e rest hreset hseq hans hwf
  refine ⟨({ s with answers := rest } : State).complete q k (.err e), ?_, rfl, rfl, rfl, rfl, ?_, rfl, hreset, rfl, ?_⟩
  · rw [step, fetch_failed hreset hseq hans]
  · cases q <;> rfl
  · intro reg
    rw [State.sensorHolds, complete_err, raise_sensor, record_sensor, State.awaitsWriteOf, hseq]
    cases q with
    | read r => rfl
    | write r w => exact sensorRead_forgotten hwf r reg

/-- Settles O6: the fetch finds nothing at the port it looks at. -/
theorem stepWaits : Obligations.StepWaits := by
  intro s hreset
  refine ⟨fun hseq hcmds => by simp [step, fetch, hreset, hseq, hcmds], fun hseq hans => ?_⟩
  obtain ⟨q, k, hseq⟩ := (seq_cases s.seq).resolve_left hseq
  simp [step, fetch, hreset, hseq, hans]

theorem toOption_eq_some {ε α : Type} {e : Except ε α} {a : α} (h : e.toOption = some a) : e = .ok a := by
  cases e with
  | ok b => exact congrArg Except.ok (Option.some.inj h)
  | error x => cases h

/-- Settles O8: a command is placed at the head of the port of an idle block; a bus row as the answer to its
transaction, for which the block then fetches that row. -/
theorem placedInstructionRuns : Obligations.PlacedInstructionRuns := by
  constructor
  · intro s w i h
    have hdec : decodeCommand (BitVec.ofNat 72 w) = .ok i := by
      unfold decodeTableWord at h
      split_ifs at h with h72 h24
      · exact toOption_eq_some h
      · omega
    exact step_run (fetch_command (s := s.withFetchWord 72 w) rfl rfl rfl hdec)
  · intro s w i h
    have hdec : decodeBus (BitVec.ofNat 24 w) = .ok i := by
      unfold decodeTableWord at h
      split_ifs at h with h72 h24
      · omega
      · exact toOption_eq_some h
    obtain ⟨q, k, word, ho⟩ := exists_outstandingFor (encode_of_decodeBus hdec).2.2
    have hplaced : s.withFetchWord 24 w =
        { s with resetIn := false, seq := .waiting q k, answers := .ok word :: s.answers } := by
      show placeBusRow s w = _
      have hbind : (decodeBus (BitVec.ofNat 24 w)).toOption.bind outstandingFor = some (.waiting q k, word) := by
        rw [hdec]
        exact ho
      simp only [placeBusRow, hbind]
    rw [hplaced]
    exact ⟨step_run (fetch_transaction rfl rfl rfl (transactionInstr_of_outstandingFor ho)), rfl, nofun⟩

/-- Settles O50: a bus row answers its own transaction only. -/
theorem busRowNotIssuedIsRefused : Obligations.BusRowNotIssuedIsRefused := by
  intro i q k w s ho hnot
  rw [exec_busRow ho]
  rcases seq_cases s.seq with hseq | ⟨q', k', hseq⟩
  · simp [State.transact, hseq]
  · have hq : q' ≠ q := fun hq => hnot k' (hq ▸ hseq)
    simp [State.transact, hseq, hq]

end Sys2Proof.Proofs

/-! Operations that only answer: the getters of the fields that can be UNSET (41_device_state_ops R151 to R155), the
illuminance operations but for their numbers (42_illuminance_ops), and CLASSIFY (43_autorange_ops R190). -/

namespace Sys2Proof.Proofs
open Sys2Proof Sys2Proof.Machine Sys2Proof.Laws

section
variable {i : Instr} {s : State} (hi : isBusRow i = false) (hs : s.seq = .idle)
include hi hs

/-- An operation that ends at once gives its response and changes nothing else of an idle block. -/
theorem exec_eq_answered {c : Status} {a : Arg} (hstart : started i s = s.respond ⟨c, a⟩) :
    exec i s = .next (s.answered c a) := by
  rw [exec_idle i hi hs, hstart, drive_respond, respond_of_idle s _ hs, State.answered]

theorem exec_data_none {α : Type} {o : Option α} (f : α → Arg)
    (hstart : started i s = withData o (fun v s => s.finish (f v)) s) (ho : o = none) :
    exec i s = .next (s.answered .noData 0#64) := by
  subst ho
  exact exec_eq_answered hi hs hstart

theorem exec_data_some {α : Type} {o : Option α} (f : α → Arg) {v : α} {a : Arg}
    (hstart : started i s = withData o (fun v s => s.finish (f v)) s) (ho : o = some v) (ha : f v = a) :
    exec i s = .next (s.answered .ok a) := by
  subst ho ha
  exact exec_eq_answered hi hs hstart

theorem exec_lux_none {x : Arg} {o : Option Machine.Num} (hstart : started i s = finishLux x o s) (ho : o = none) :
    exec i s = .next (s.answered .invalidValue 0#64) := by
  subst ho
  exact exec_eq_answered hi hs hstart

theorem exec_lux_some {x : Arg} {o : Option Machine.Num} {n : Machine.Num} (hstart : started i s = finishLux x o s)
    (ho : o = some n) : exec i s = .next (s.answered .ok (numBits x n)) := by
  subst ho
  exact exec_eq_answered hi hs hstart

end

/-! ### Getters of fields that can be UNSET -/

/-- Settles O31: each getter ends with NO_DATA, or at once with its field. -/
theorem unsettableGettersAnswer : Obligations.UnsettableGettersAnswer := by
  refine ⟨decode_commandWord 0x38#8 argN, decode_commandWord 0x39#8 argN, decode_commandWord 0x3A#8 argN,
    decode_commandWord 0x3B#8 argN, decode_commandWord 0x3C#8 argN, fun s hs => ?_⟩
  exact ⟨exec_data_none rfl hs resultWord rfl, fun w h => exec_data_some rfl hs resultWord rfl h rfl,
    exec_data_none rfl hs resultWord rfl, fun w h => exec_data_some rfl hs resultWord rfl h rfl,
    exec_data_none rfl hs resultWord rfl, fun w h => exec_data_some rfl hs resultWord rfl h rfl,
    exec_data_none rfl hs resultWord rfl, fun w h => exec_data_some rfl hs resultWord rfl h rfl,
    exec_data_none rfl hs resultEvent rfl, fun h => exec_data_some rfl hs resultEvent rfl h rfl,
    fun h => exec_data_some rfl hs resultEvent rfl h rfl, fun h => exec_data_some rfl hs resultEvent rfl h rfl,
    fun h => exec_data_some rfl hs resultEvent rfl h rfl⟩

/-! ### Illuminance -/

/-- The exponent field of all ones is an infinity's or a NaN's. -/
theorem numFinite_numOfBits (x : Arg) : numFinite (numOfBits x) = !decide ((x.extractLsb' 52 11).toNat = 2047) := by
  unfold numOfBits
  dsimp only
  split_ifs with he hf h0 <;> simp only [numFinite, he, decide_true, decide_false, Bool.not_true, Bool.not_false]

theorem highLuxCorrection_of_finite (p : Params) {x : Machine.Num} (h : numFinite x = true) :
    Machine.highLuxCorrection p x = some (quartic p x) := if_pos h

theorem highLuxCorrection_of_not_finite (p : Params) {x : Machine.Num} (h : numFinite x = false) :
    Machine.highLuxCorrection p x = none := by
  simp [Machine.highLuxCorrection, h]

/-- Settles O33: HLC is the quartic of a finite operand, and the quartic's steps are those of the statement. -/
theorem highLuxCorrection : Obligations.HighLuxCorrection := by
  refine ⟨fun x => decode_commandWord 0x42#8 x, fun s x hs => ⟨fun he => ?_, fun he => ?_⟩⟩
  · have hfin : numFinite (numOfBits x) = false := by rw [numFinite_numOfBits, decide_eq_true he]; rfl
    exact exec_lux_none rfl hs rfl (highLuxCorrection_of_not_finite _ hfin)
  · have hfin : numFinite (numOfBits x) = true := by rw [numFinite_numOfBits, decide_eq_false he]; rfl
    exact exec_lux_some rfl hs rfl (highLuxCorrection_of_finite _ hfin)

section
variable {p : Params} {d : DeviceState} {w : Word} {x : Machine.Num}
  (hx : fmul (numOfNat w.toNat) (luxResolution p d) = x)
include hx

/-- The product of count and resolution, up to 100. -/
theorem rawToLux_of_low (h : fgt x (litNum 100 1) = false) : Machine.rawToLux p d w = some x := by
  subst hx
  exact if_neg (by rw [highLux, h]; exact Bool.false_ne_true)

theorem rawToLux_of_high (h : fgt x (litNum 100 1) = true) :
    Machine.rawToLux p d w = Machine.highLuxCorrection p x := by
  subst hx
  exact if_pos h

end

/-- Settles O34: the three cases of the model's `rawToLux`. -/
theorem rawToLux : Obligations.RawToLux := by
  refine ⟨fun w => decode_commandWord_argW w rfl, fun s w x hs hx => ⟨fun hlow => ?_, fun hhigh hfin => ?_,
    fun hhigh hfin => ?_⟩⟩
  · exact exec_lux_some rfl hs rfl (rawToLux_of_low hx hlow)
  · exact exec_lux_some rfl hs rfl ((rawToLux_of_high hx hhigh).trans (highLuxCorrection_of_finite _ hfin))
  · exact exec_lux_none rfl hs rfl ((rawToLux_of_high hx hhigh).trans (highLuxCorrection_of_not_finite _ hfin))

/-- LUX of a stored count is RAW2LUX of it. -/
theorem exec_lux_of_stored {s : State} {w : Word} (hs : s.seq = .idle) (hals : s.dev.als = some w) :
    exec .lux s = exec (.raw2lux w) s := by
  have hstart : started .lux s = started (.raw2lux w) s :=
    congrArg (fun o => withData o (fun w s => finishLux (resultWord w) (Machine.rawToLux s.cfg s.dev w) s) s) hals
  rw [exec_idle .lux rfl hs, exec_idle (.raw2lux w) rfl hs, hstart]

theorem isOverflowing_iff (w : Word) : isOverflowing w = decide (w = 0xFFFF#16) := by
  have hw := w.isLt
  rw [isOverflowing, decide_eq_decide, BitVec.toNat_eq]
  show 65535 ≤ w.toNat ↔ w.toNat = 65535
  omega

theorem isUnderflowing_iff (w : Word) : isUnderflowing w = decide (w = 0#16) := by
  rw [isUnderflowing, decide_eq_decide, BitVec.toNat_eq]
  exact Nat.le_zero

/-- Settles O36: LUX by RAW2LUX of the stored count, the two tests by the count's two ends. -/
theorem storedCountOperations : Obligations.StoredCountOperations := by
  refine ⟨decode_commandWord 0x44#8 argN, decode_commandWord 0x45#8 argN, decode_commandWord 0x46#8 argN,
    fun s hs => ⟨fun hals => ⟨?_, ?_, ?_⟩, fun w hals => ?_⟩⟩
  · have hstart : started .lux s = s.raise .noData :=
      congrArg (fun o => withData o (fun w s => finishLux (resultWord w) (Machine.rawToLux s.cfg s.dev w) s) s) hals
    exact exec_eq_answered rfl hs hstart
  · exact exec_data_none rfl hs (fun w => resultBool (isOverflowing w)) rfl hals
  · exact exec_data_none rfl hs (fun w => resultBool (isUnderflowing w)) rfl hals
  have hlux := exec_lux_of_stored hs hals
  refine ⟨fun x hx => ?_, hlux, ?_, ?_⟩
  · obtain ⟨hlow, hhigh, -⟩ := rawToLux.2 s w x hs hx
    rw [hlux]
    exact ⟨hlow, hhigh⟩
  · refine exec_data_some rfl hs (fun w => resultBool (isOverflowing w)) rfl hals ?_
    rw [isOverflowing_iff, resultBool_eq_ite]
    simp only [decide_eq_true_eq]
  · refine exec_data_some rfl hs (fun w => resultBool (isUnderflowing w)) rfl hals ?_
    rw [isUnderflowing_iff, resultBool_eq_ite]
    simp only [decide_eq_true_eq]

/-- Admissible overheads leave the sum with the longest integration time in the port's range (log 16). -/
theorem overhead_lt {p : Params} (h : paramsOk p = true) (m : PowerSavingMode) : psOverheadMs p m + 800 < 2 ^ 64 := by
  simp only [paramsOk, Bool.and_eq_true, decide_eq_true_eq] at h
  obtain ⟨⟨⟨⟨-, h12⟩, h23⟩, h34⟩, h4⟩ := h
  cases m <;> simp only [psOverheadMs] <;> omega

theorem itMillis_le (t : IntegrationTime) : itMillis t ≤ 800 := by cases t <;> decide

theorem started_refresh_some {s : State} {ms : Nat} (h : refreshMillis s.cfg s.dev = some ms) :
    started .refresh s = s.respond ⟨.ok, resultNat ms⟩ := by
  simp only [started, h, State.finish]

/-- Settles O37: the three cases of `refreshMillis`. -/
theorem refreshTime : Obligations.RefreshTime := by
  refine ⟨decode_commandWord 0x47#8 argN, fun s hs hp => ⟨fun hsd => ?_, fun hsd => ?_⟩⟩
  · have hms : refreshMillis s.cfg s.dev = none := by simp [refreshMillis, hsd]
    exact exec_eq_answered rfl hs (by simp only [started, hms, resultNone])
  · have hms : refreshMillis s.cfg s.dev =
        some (itMillis s.dev.it + if s.dev.psmEn then psOverheadMs s.cfg s.dev.psm else 0) := by
      cases hen : s.dev.psmEn <;> simp [refreshMillis, hsd, hen]
    refine ⟨_, exec_eq_answered rfl hs (started_refresh_some hms), ?_⟩
    have hover := overhead_lt hp s.dev.psm
    have hit := itMillis_le s.dev.it
    rw [resultNat, BitVec.toNat_ofNat, Nat.mod_eq_of_lt]
    split <;> omega

/-! ### CLASSIFY -/

/-- LOWER_END is the verdict on a count below 100 where gain or integration time can still rise. -/
theorem classify_eq_lowerEnd_iff (g : Gain) (t : IntegrationTime) (w : Word) :
    classify g t w = .lowerEnd ↔ LowerEnd g t w := by
  have hroom : (gainBelowMax g || decide (itMillis t < 800)) = decide (g ≠ .two ∨ t ≠ .ms800) := by
    cases g <;> cases t <;> rfl
  simp only [classify, hroom, LowerEnd, Bool.and_eq_true, decide_eq_true_eq]
  by_cases h : w.toNat < lowCount ∧ (g ≠ .two ∨ t ≠ .ms800)
  · simp only [if_pos h, true_iff]
    exact h
  · rw [if_neg h]
    refine iff_of_false ?_ h
    split <;> nofun

/-- UPPER_END is the verdict on a count above 10000 where gain or integration time can still fall. -/
theorem classify_eq_upperEnd_iff (g : Gain) (t : IntegrationTime) (w : Word) :
    classify g t w = .upperEnd ↔ UpperEnd g t w := by
  have hroom : (gainAboveMin g || decide (25 < itMillis t)) = decide (g ≠ .eighth ∨ t ≠ .ms25) := by
    cases g <;> cases t <;> rfl
  simp only [classify, hroom, UpperEnd, Bool.and_eq_true, decide_eq_true_eq]
  by_cases h : highCount < w.toNat ∧ (g ≠ .eighth ∨ t ≠ .ms25)
  · have hlow : ¬w.toNat < lowCount := by
      have := h.1
      unfold highCount at this
      unfold lowCount
      omega
    simp only [hlow, false_and, if_false, if_pos h, true_iff]
    exact h
  · rw [if_neg h]
    refine iff_of_false ?_ h
    split <;> nofun

theorem classify_eq_sweet_iff (g : Gain) (t : IntegrationTime) (w : Word) :
    classify g t w = .sweet ↔ ¬LowerEnd g t w ∧ ¬UpperEnd g t w := by
  rw [← classify_eq_lowerEnd_iff, ← classify_eq_upperEnd_iff]
  cases classify g t w <;> simp

/-- CLASSIFY answers the verdict's code. -/
theorem exec_classify {s : State} {w : Word} {v : Classification} (hs : s.seq = .idle) (hals : s.dev.als = some w)
    (hv : classify s.dev.gain s.dev.it w = v) : exec .classify s = .next (s.answered .ok (resultClass v)) := by
  subst hv
  exact exec_data_some rfl hs (fun w => resultClass (classify s.dev.gain s.dev.it w)) rfl hals rfl

/-- Settles O41: the three verdicts are the three cases of `classify`. -/
theorem classifyVerdict : Obligations.ClassifyVerdict := by
  refine ⟨decode_commandWord 0x50#8 argN, fun s hs => ⟨exec_data_none rfl hs
    (fun w => resultClass (classify s.dev.gain s.dev.it w)) rfl, fun w hals =>
    ⟨fun h => ?_, fun h => ?_, fun hl hu => ?_⟩⟩⟩
  · exact exec_classify hs hals ((classify_eq_lowerEnd_iff _ _ _).mpr h)
  · exact exec_classify hs hals ((classify_eq_upperEnd_iff _ _ _).mpr h)
  · exact exec_classify hs hals ((classify_eq_sweet_iff _ _ _).mpr ⟨hl, hu⟩)

end Sys2Proof.Proofs

/-! The setters (41_device_state_ops sections 1 to 4) and the step primitives (43_autorange_ops section 2), answer by
answer. -/

namespace Sys2Proof.Proofs
open Sys2Proof Sys2Proof.Machine Sys2Proof.Laws

/-! ### A transaction and its answer -/

/-- An answered transaction does not look at the sequencer: whatever comes next sets it. -/
theorem complete_seq (s : State) (seq : Sequencer) (q : Request) (k : Resume) (a : Answer) :
    ({ s with seq := seq } : State).complete q k a = s.complete q k a := by
  cases a with
  | err e => rfl
  | ok w =>
    cases k with
    | powerSaving e m =>
      simp only [State.complete, State.resumeWith, State.setPowerSaving, State.record]
      cases decide (s.dev.psmEn = e ∧ s.dev.psm = m) <;> rfl
    | sampleAls r => cases r <;> rfl
    | calibrateSampling =>
      simp only [State.complete, State.resumeWith, State.judge, State.record]
      split <;> rfl
    | _ => rfl

section
variable {i : Instr} {s : State} {d : DeviceState} {q : Request} {k : Resume} (hi : isBusRow i = false)
  (hs : s.seq = .idle) (hstart : started i s = ({ s with dev := d } : State).issue q k)
include hi hs hstart

/-- The first transaction, not answered. -/
theorem exec_unanswered (hans : s.answers = []) : exec i s = .next { s with dev := d, seq := .waiting q k } := by
  rw [exec_idle i hi hs, hstart, drive_issue_nil q k (s := { s with dev := d }) hans]
  rfl

/-- The first transaction, answered. -/
theorem exec_transaction {a : Answer} {rest : List Answer} (hans : s.answers = a :: rest) :
    exec i s = .next (driveWith rest (({ s with dev := d } : State).complete q k a)) := by
  rw [exec_idle i hi hs, hstart, drive_issue_cons q k (s := { s with dev := d }) hans, State.issue, complete_seq]

/-- The first transaction, failed (60_exceptions R222): what was stored before it stays. -/
theorem exec_failed {e : TransportError} {rest : List Answer} (hans : s.answers = .err e :: rest) :
    exec i s = .next { s with
      dev := d
      answers := rest
      trace := s.trace ++ [busEvent q (.err e)]
      sensor := sensorAfter q (.err e) s.sensor
      responses := s.responses ++ [⟨.transportError, e.setWidth 64⟩] } := by
  rw [exec_transaction hi hs hstart hans, complete_err, driveWith_idle rest (raise_seq _ _)]
  obtain ⟨dev, seq, sensor, cmds, answers, resetIn, responses, trace, cfg⟩ := s
  cases hs
  rfl

/-- The first transaction, answered `ok`, ends the operation: the response, and the value stored with it. -/
theorem exec_ended {w : Word} {rest : List Answer} {d' : DeviceState} {r : Response}
    (hans : s.answers = .ok w :: rest)
    (hend : ∀ u : State, u.dev = d → u.resumeWith k w = { u with dev := d' }.respond r) :
    exec i s = .next { s with
      dev := d'
      answers := rest
      trace := s.trace ++ [busEvent q (.ok w)]
      sensor := sensorAfter q (.ok w) s.sensor
      responses := s.responses ++ [r] } := by
  have hcomplete : ({ s with dev := d } : State).complete q k (.ok w) =
      { ({ s with dev := d } : State).record q (.ok w) with dev := d' }.respond r := hend _ rfl
  rw [exec_transaction hi hs hstart hans, hcomplete, driveWith_idle rest (respond_seq _ _)]
  obtain ⟨dev, seq, sensor, cmds, answers, resetIn, responses, trace, cfg⟩ := s
  cases hs
  rfl

end

/-! ### The setter discipline (41_device_state_ops R129) -/

/-- A field set from an idle block, driven: silent when unchanged; stored and written when changed. -/
theorem setterEffect_of_setField {out : Host.Outcome State Fault Refusal} {s : State} {unchanged : Prop} {b : Bool}
    {d : DeviceState} {reg : SensorReg} {w : Word} (hs : s.seq = .idle) (hb : b = true ↔ unchanged)
    (hw : shadowImage s.cfg d reg = some w) (hout : out = .next (s.setField b d reg).drive) :
    SetterEffect out s unchanged d reg w := by
  subst hout
  have hchanged : ¬unchanged → s.setField b d reg = { s with dev := d }.issue (.write reg w) .respond := by
    intro hu
    have hbf : b = false := Bool.eq_false_iff.mpr (mt hb.mp hu)
    rw [hbf, setField_changed s d reg hw]
  refine ⟨fun hu => ?unchanged, fun hu v rest hans => ?ok, fun hu t rest hans => ?err, fun hu hans => ?unanswered⟩
  case unchanged =>
    rw [hb.mpr hu, setField_unchanged, drive_finish, finish_of_idle s _ hs, resultNone]
  case ok =>
    rw [hchanged hu, drive_issue_cons _ _ (s := { s with dev := d }) hans, complete_respond,
      driveWith_idle rest (finish_seq _ _)]
    obtain ⟨dev, seq, sensor, cmds, answers, resetIn, responses, trace, cfg⟩ := s
    cases hs
    rfl
  case err =>
    rw [hchanged hu, drive_issue_cons _ _ (s := { s with dev := d }) hans, complete_err,
      driveWith_idle rest (raise_seq _ _)]
    obtain ⟨dev, seq, sensor, cmds, answers, resetIn, responses, trace, cfg⟩ := s
    cases hs
    rfl
  case unanswered =>
    rw [hchanged hu, drive_issue_nil _ _ (s := { s with dev := d }) hans]
    rfl

section
variable {i : Instr} {s : State} (hi : isSetter i = true) (hs : s.seq = .idle)
include hi hs

/-- A setter with a valid operand follows the discipline for its field. -/
theorem setterEffect_of_update {u : FieldUpdate} {unchanged : Prop} {w : Word} (hu : setterUpdate i = some u)
    (hb : u.holds s.dev = true ↔ unchanged) (hw : shadowImage s.cfg (u.store s.dev) u.reg = some w) :
    SetterEffect (exec i s) s unchanged (u.store s.dev) u.reg w :=
  setterEffect_of_setField hs hb hw (by rw [exec_setter hi hs, hu, withValue_some, FieldUpdate.run])

/-- A setter with an operand that is no value. -/
theorem exec_setter_invalid (hu : setterUpdate i = none) : exec i s = .next (s.answered .invalidValue 0#64) := by
  rw [exec_setter hi hs, hu, withValue_none, drive_raise]
  exact congrArg Host.Outcome.next (respond_of_idle s _ hs)

end

theorem confImage_some (p : Params) (d : DeviceState) : shadowImage p d .conf = some (confLayout p d) :=
  congrArg some (confImage_eq_layout p d)

theorem psmImage_some (p : Params) (d : DeviceState) : shadowImage p d .psm = some (psmLayout p d) :=
  congrArg some (psmImage_eq_layout p d)

/-- Settles O23: both forms of a setter ask for the same update of its field. -/
theorem setEnumerators : Obligations.SetEnumerators := by
  intro s hs
  refine ⟨fun k hk => ⟨?_, ?_, ?_⟩,
    fun x => ⟨decode_commandWord _ x, decode_commandWord _ x, decode_commandWord _ x⟩,
    fun g i hgi => ?gain, fun k hk => ?_, fun x hx => ?_, fun t i hti => ?it, fun k hk => ?_, fun x hx => ?_,
    fun c i hci => ?pers, fun k hk => ?_, fun x hx => ?_⟩
  · exact (decode_commandWord _ _).trans (formE_argNat _ hk)
  · exact (decode_commandWord _ _).trans (formE_argNat _ hk)
  · exact (decode_commandWord _ _).trans (formE_argNat _ hk)
  case gain =>
    have hu : isSetter i = true ∧ setterUpdate i = some (gainUpdate g) := by
      rcases hgi with ⟨k, hk, rfl⟩ | ⟨x, hx, rfl⟩
      · exact ⟨rfl, congrArg (Option.map gainUpdate) hk⟩
      · exact ⟨rfl, congrArg (Option.map gainUpdate) hx⟩
    exact setterEffect_of_update hu.1 hs hu.2 decide_eq_true_iff (confImage_some _ _)
  case it =>
    have hu : isSetter i = true ∧ setterUpdate i = some (itUpdate t) := by
      rcases hti with ⟨k, hk, rfl⟩ | ⟨x, hx, rfl⟩
      · exact ⟨rfl, congrArg (Option.map itUpdate) hk⟩
      · exact ⟨rfl, congrArg (Option.map itUpdate) hx⟩
    exact setterEffect_of_update hu.1 hs hu.2 decide_eq_true_iff (confImage_some _ _)
  case pers =>
    have hu : isSetter i = true ∧ setterUpdate i = some (persUpdate c) := by
      rcases hci with ⟨k, hk, rfl⟩ | ⟨x, hx, rfl⟩
      · exact ⟨rfl, congrArg (Option.map persUpdate) hk⟩
      · exact ⟨rfl, congrArg (Option.map persUpdate) hx⟩
    exact setterEffect_of_update hu.1 hs hu.2 decide_eq_true_iff (confImage_some _ _)
  · exact exec_setter_invalid rfl hs (congrArg (Option.map gainUpdate) (List.getElem?_eq_none hk))
  · exact exec_setter_invalid rfl hs (congrArg (Option.map gainUpdate) hx)
  · exact exec_setter_invalid rfl hs (congrArg (Option.map itUpdate) (List.getElem?_eq_none hk))
  · exact exec_setter_invalid rfl hs (congrArg (Option.map itUpdate) hx)
  · exact exec_setter_invalid rfl hs (congrArg (Option.map persUpdate) (List.getElem?_eq_none hk))
  · exact exec_setter_invalid rfl hs (congrArg (Option.map persUpdate) hx)

/-- Settles O24: each flag's update under the setter discipline. -/
theorem setFlags : Obligations.SetFlags := by
  intro s b hs
  exact ⟨(decode_commandWord _ _).trans (formB_argB b _), (decode_commandWord _ _).trans (formB_argB b _),
    (decode_commandWord _ _).trans (formB_argB b _),
    setterEffect_of_update (u := intEnUpdate b) rfl hs rfl decide_eq_true_iff (confImage_some _ _),
    setterEffect_of_update (u := sdUpdate b) rfl hs rfl decide_eq_true_iff (confImage_some _ _),
    setterEffect_of_update (u := psmEnUpdate b) rfl hs rfl decide_eq_true_iff (psmImage_some _ _)⟩

/-- Settles O25: the modes are the integers 1 to 4, and the update does not look at the enable. -/
theorem setMode : Obligations.SetMode := by
  intro s hs
  refine ⟨fun a => decode_commandWord _ a, fun m => ?_, fun n hn => ?_⟩
  · exact setterEffect_of_update (u := psmUpdate m) rfl hs (congrArg (Option.map psmUpdate) (psmOfInt_psmNumber m))
      decide_eq_true_iff (psmImage_some _ _)
  · exact exec_setter_invalid rfl hs (congrArg (Option.map psmUpdate) (psmOfInt_eq_none hn))

/-- The truncation of a threshold is its floor modulus (30_encoding R65). -/
theorem truncate16_eq (n : Int) : truncate16 n = BitVec.ofNat 16 (n % 65536).toNat := by
  apply BitVec.eq_of_toNat_eq
  simp only [truncate16, BitVec.toNat_ofInt, BitVec.toNat_ofNat]
  omega

/-- Settles O26: each threshold's update of the truncated integer. -/
theorem setThresholds : Obligations.SetThresholds := by
  refine ⟨fun a => ⟨decode_commandWord _ a, decode_commandWord _ a⟩, fun s n hs => ?_⟩
  rw [← truncate16_eq]
  exact ⟨setterEffect_of_update (u := thrHiUpdate (truncate16 n)) rfl hs rfl decide_eq_true_iff rfl,
    setterEffect_of_update (u := thrLoUpdate (truncate16 n)) rfl hs rfl decide_eq_true_iff rfl⟩

/-! ### The step primitives (43_autorange_ops R191 to R194) -/

section
variable {i : Instr} {s : State} (hi : isBusRow i = false) (hs : s.seq = .idle)
include hi hs

/-- At the end of a ladder a step is silent. -/
theorem exec_step_none {α : Type} {o : Option α} {k : α → State → State} (hstart : started i s = stepTo o k s)
    (ho : o = none) : exec i s = .next (s.answered .ok 0#64) := by
  subst ho
  exact exec_eq_answered hi hs hstart

/-- A step to another gain is a change of the gain. -/
theorem setterEffect_gainStep {o : Option Gain} {g : Gain} (hstart : started i s = stepTo o setGain s)
    (h : o = some g ∧ s.dev.gain ≠ g) :
    SetterEffect (exec i s) s False { s.dev with gain := g } .conf (confLayout s.cfg { s.dev with gain := g }) := by
  obtain ⟨rfl, hne⟩ := h
  exact setterEffect_of_setField (b := decide (s.dev.gain = g)) hs (by simp [hne]) (confImage_some _ _)
    (by rw [exec_idle i hi hs, hstart]; rfl)

/-- A step to another integration time is a change of the integration time. -/
theorem setterEffect_itStep {o : Option IntegrationTime} {t : IntegrationTime} (hstart : started i s = stepTo o setIt s)
    (h : o = some t ∧ s.dev.it ≠ t) :
    SetterEffect (exec i s) s False { s.dev with it := t } .conf (confLayout s.cfg { s.dev with it := t }) := by
  obtain ⟨rfl, hne⟩ := h
  exact setterEffect_of_setField (b := decide (s.dev.it = t)) hs (by simp [hne]) (confImage_some _ _)
    (by rw [exec_idle i hi hs, hstart]; rfl)

end

/-- Settles O42: at each place of a ladder the step is none, or a neighbour other than the current value. -/
theorem stepPrimitives : Obligations.StepPrimitives := by
  refine ⟨decode_commandWord 0x51#8 argN, decode_commandWord 0x52#8 argN, decode_commandWord 0x53#8 argN,
    decode_commandWord 0x54#8 argN, fun s hs => ⟨fun h => ?_, fun g hg => ?_, fun h => ?_, fun g hg => ?_, fun h => ?_,
    fun t ht => ?_, fun h => ?_, fun t ht => ?_⟩⟩
  · exact exec_step_none (o := gainUp s.dev.gain) (k := setGain) rfl hs rfl (by rw [h]; rfl)
  · have hup : ∀ r ∈ [(Gain.eighth, Gain.quarter), (.quarter, .one), (.one, .two)],
        gainUp r.1 = some r.2 ∧ r.1 ≠ r.2 := by decide
    exact setterEffect_gainStep rfl hs rfl (hup _ hg)
  · exact exec_step_none (o := gainDown s.dev.gain) (k := setGain) rfl hs rfl (by rw [h]; rfl)
  · have hdown : ∀ r ∈ [(Gain.quarter, Gain.eighth), (.one, .quarter), (.two, .one)],
        gainDown r.1 = some r.2 ∧ r.1 ≠ r.2 := by decide
    exact setterEffect_gainStep rfl hs rfl (hdown _ hg)
  · exact exec_step_none (o := itUp s.dev.it) (k := setIt) rfl hs rfl (by rw [h]; rfl)
  · have hup : ∀ r ∈ [(IntegrationTime.ms25, IntegrationTime.ms50), (.ms50, .ms100), (.ms100, .ms200),
        (.ms200, .ms400), (.ms400, .ms800)], itUp r.1 = some r.2 ∧ r.1 ≠ r.2 := by decide
    exact setterEffect_itStep rfl hs rfl (hup _ ht)
  · exact exec_step_none (o := itDown s.dev.it) (k := setIt) rfl hs rfl (by rw [h]; rfl)
  · have hdown : ∀ r ∈ [(IntegrationTime.ms50, IntegrationTime.ms25), (.ms100, .ms50), (.ms200, .ms100),
        (.ms400, .ms200), (.ms800, .ms400)], itDown r.1 = some r.2 ∧ r.1 ≠ r.2 := by decide
    exact setterEffect_itStep rfl hs rfl (hdown _ ht)

/-! ### SET.POWER (41_device_state_ops R137) -/

/-- SET.POWER asks for its target: the power-saving part at once, or the shutdown flag first. -/
theorem setPower_eq (s : State) (p : PowerStatus) :
    s.setPower p =
      if s.dev.sd = (powerTarget s.dev p).sd then s.setPowerSaving (powerTarget s.dev p).psmEn (powerTarget s.dev p).psm
      else ({ s with dev := { s.dev with sd := (powerTarget s.dev p).sd } } : State).issue
        (.write .conf (confLayout s.cfg { s.dev with sd := (powerTarget s.dev p).sd }))
        (.powerSaving (powerTarget s.dev p).psmEn (powerTarget s.dev p).psm) := by
  rw [← confImage_eq_layout]
  cases p <;> rfl

/-- Of S a power status asks for the shutdown flag and the power-saving part alone. -/
theorem powerTarget_eq (d : DeviceState) (p : PowerStatus) :
    powerTarget d p = { d with
      sd := (powerTarget d p).sd, psmEn := (powerTarget d p).psmEn, psm := (powerTarget d p).psm } := by
  cases p <;> rfl

/-- The power-status codes in order (30_encoding R82 form P). -/
theorem powerOfCode_eq_getElem (k : Nat) :
    powerOfCode k = [PowerStatus.on, .save .m1, .save .m2, .save .m3, .save .m4, .off][k]? := by
  rcases k with _ | _ | _ | _ | _ | _ | k <;> rfl

/-- The two targets of the power-saving part, under the setter discipline. -/
theorem setterEffect_setPowerSaving {out : Host.Outcome State Fault Refusal} {s : State} {e : Bool}
    {m : PowerSavingMode} (hs : s.seq = .idle) (hout : out = .next (s.setPowerSaving e m).drive) :
    SetterEffect out s (s.dev.psmEn = e ∧ s.dev.psm = m) { s.dev with psmEn := e, psm := m } .psm
      (psmLayout s.cfg { s.dev with psmEn := e, psm := m }) :=
  setterEffect_of_setField hs decide_eq_true_iff (psmImage_some _ _) hout

/-- The power-saving part after an answered CONF write is that part from the idle block with the write recorded. -/
theorem complete_powerSaving (s : State) (w v : Word) (e : Bool) (m : PowerSavingMode) :
    s.complete (.write .conf w) (.powerSaving e m) (.ok v) =
      ({ s with
        seq := .idle
        trace := s.trace ++ [.write .conf w none]
        sensor := sensorWrite s.sensor 0 w } : State).setPowerSaving e m := by
  rw [← complete_seq s .idle]
  rfl

/-- The power-saving part, driven against given answers. -/
theorem setPowerSaving_drive (s : State) (as : List Answer) (e : Bool) (m : PowerSavingMode) :
    (({ s with answers := as } : State).setPowerSaving e m).drive = driveWith as (s.setPowerSaving e m) := by
  have hanswers : ({ s with answers := as } : State).setPowerSaving e m =
      { s.setPowerSaving e m with answers := as } := setField_answers s as _ _ _
  rw [hanswers, State.drive, driveWith_answers]

/-- The state in which SET.POWER goes on to its power-saving part: the shutdown flag stored and written. -/
def afterShutdownWrite (s : State) (p : PowerStatus) (rest : List Answer) : State :=
  { s with
    dev := { s.dev with sd := (powerTarget s.dev p).sd }
    seq := .idle
    answers := rest
    trace := s.trace ++ [.write .conf (confLayout s.cfg (powerTarget s.dev p)) none]
    sensor := sensorWrite s.sensor 0 (confLayout s.cfg (powerTarget s.dev p)) }

theorem confLayout_powerTarget (c : Params) (d : DeviceState) (p : PowerStatus) :
    confLayout c { d with sd := (powerTarget d p).sd } = confLayout c (powerTarget d p) := by
  cases p <;> rfl

/-- With the shutdown flag changed, SET.POWER first stores it and writes CONF. -/
theorem started_setPower {s : State} {k : Nat} {p : PowerStatus} (hk : powerOfCode k = some p)
    (hsd : (powerTarget s.dev p).sd ≠ s.dev.sd) :
    started (.setPower k) s = ({ s with dev := { s.dev with sd := (powerTarget s.dev p).sd } } : State).issue
      (.write .conf (confLayout s.cfg (powerTarget s.dev p)))
      (.powerSaving (powerTarget s.dev p).psmEn (powerTarget s.dev p).psm) := by
  show withValue (powerOfCode k) (fun p s => s.setPower p) s = _
  rw [hk, withValue_some, setPower_eq, if_neg (Ne.symm hsd), confLayout_powerTarget]

section
variable {s : State} {k : Nat} {p : PowerStatus} (hs : s.seq = .idle) (hk : powerOfCode k = some p)
include hs hk

theorem exec_setPower : exec (.setPower k) s = .next (s.setPower p).drive := by
  rw [exec_idle _ rfl hs]
  show Host.Outcome.next (withValue (powerOfCode k) (fun p s => s.setPower p) s).drive = _
  rw [hk, withValue_some]

/-- With the shutdown flag as it is, SET.POWER is its power-saving part. -/
theorem setPower_sameShutdown (hsd : (powerTarget s.dev p).sd = s.dev.sd) :
    SetterEffect (exec (.setPower k) s) s
      ((powerTarget s.dev p).psmEn = s.dev.psmEn ∧ (powerTarget s.dev p).psm = s.dev.psm) (powerTarget s.dev p) .psm
      (psmLayout s.cfg (powerTarget s.dev p)) := by
  have htarget := powerTarget_eq s.dev p
  rw [hsd] at htarget
  have heffect := setterEffect_setPowerSaving (e := (powerTarget s.dev p).psmEn) (m := (powerTarget s.dev p).psm) hs
    (exec_setPower hs hk |>.trans (by rw [setPower_eq, if_pos hsd.symm]))
  rw [eq_comm (a := s.dev.psmEn), eq_comm (a := s.dev.psm)] at heffect
  have hstored : { s.dev with psmEn := (powerTarget s.dev p).psmEn, psm := (powerTarget s.dev p).psm } =
      powerTarget s.dev p := htarget.symm
  rwa [hstored] at heffect

/-- The CONF write answered `ok`: the power-saving part, from the state after it. -/
theorem setPower_afterShutdown (hsd : (powerTarget s.dev p).sd ≠ s.dev.sd) {v : Word} {rest : List Answer}
    (hans : s.answers = .ok v :: rest) :
    SetterEffect (exec (.setPower k) s) (afterShutdownWrite s p rest)
      (s.dev.psmEn = (powerTarget s.dev p).psmEn ∧ s.dev.psm = (powerTarget s.dev p).psm) (powerTarget s.dev p) .psm
      (psmLayout s.cfg (powerTarget s.dev p)) := by
  have hstored : { (afterShutdownWrite s p rest).dev with
      psmEn := (powerTarget s.dev p).psmEn, psm := (powerTarget s.dev p).psm } = powerTarget s.dev p :=
    (powerTarget_eq s.dev p).symm
  have heffect := setterEffect_setPowerSaving (s := afterShutdownWrite s p rest) (e := (powerTarget s.dev p).psmEn)
    (m := (powerTarget s.dev p).psm) (out := exec (.setPower k) s) rfl ?_
  · rwa [hstored] at heffect
  · rw [exec_transaction rfl hs (started_setPower hk hsd) hans, complete_powerSaving]
    exact congrArg Host.Outcome.next (setPowerSaving_drive _ rest _ _).symm

end

/-- Settles O27: by whether the shutdown flag changes; then by the answer to the CONF write, after which the
power-saving part follows the setter discipline on its own. -/
theorem setPower : Obligations.SetPower := by
  refine ⟨fun k hk => (decode_commandWord _ _).trans (formP_argNat _ hk), fun s hs => ⟨fun k hk => ?invalid, ?valid⟩⟩
  case invalid =>
    have hnone : powerOfCode k = none := (powerOfCode_eq_getElem k).trans (List.getElem?_eq_none hk)
    refine exec_eq_answered rfl hs ?_
    show withValue (powerOfCode k) (fun p s => s.setPower p) s = _
    rw [hnone]
    rfl
  case valid =>
    intro k p hk
    replace hk : powerOfCode k = some p := (powerOfCode_eq_getElem k).trans hk
    obtain ⟨dev, seq, sensor, cmds, answers, resetIn, responses, trace, cfg⟩ := s
    cases hs
    refine ⟨fun hsd => setPower_sameShutdown rfl hk hsd, fun hsd hen hm v rest hans => ?same, fun hsd =>
      ⟨fun e rest hans => ?failed, fun hans => ?unanswered⟩, fun hsd hne =>
      ⟨fun v v' rest hans => ?bothOk, fun v e rest hans => ?secondFailed, fun v hans => ?secondUnanswered⟩⟩
    case same =>
      have htarget : { dev with sd := (powerTarget dev p).sd } = powerTarget dev p := by
        rw [powerTarget_eq dev p, hen, hm]
      have hsilent := (setPower_afterShutdown rfl hk hsd hans).1 ⟨hen.symm, hm.symm⟩
      rw [hsilent, afterShutdownWrite, htarget]
      rfl
    case failed =>
      rw [confLayout_powerTarget]
      exact exec_failed rfl rfl (started_setPower hk hsd) hans
    case unanswered =>
      rw [confLayout_powerTarget]
      exact exec_unanswered rfl rfl (started_setPower hk hsd) hans
    all_goals
      replace hne : ¬(dev.psmEn = (powerTarget dev p).psmEn ∧ dev.psm = (powerTarget dev p).psm) :=
        fun h => hne ⟨h.1.symm, h.2.symm⟩
    all_goals obtain ⟨-, hok, hfailed, hunanswered⟩ := setPower_afterShutdown rfl hk hsd hans
    case bothOk => exact hok hne v' rest rfl
    case secondFailed => exact hfailed hne e rest rfl
    case secondUnanswered => exact hunanswered hne rfl

end Sys2Proof.Proofs

/-! SAMPLE (41_device_state_ops R142), POLL.EVENT (44_event_ops R210) and CALIBRATE answer by answer (43_autorange_ops
R196). -/

namespace Sys2Proof.Proofs
open Sys2Proof Sys2Proof.Machine Sys2Proof.Laws

/-! ### SAMPLE -/

theorem resultSample_als (a : Word) : resultSample a 0#16 = a.setWidth 64 := by
  apply BitVec.eq_of_toNat_eq
  rw [resultSample, BitVec.toNat_setWidth, BitVec.toNat_append, BitVec.toNat_setWidth]
  simp

theorem resultSample_white (w : Word) : resultSample 0#16 w = w.setWidth 64 <<< 16 := by
  have hw := w.isLt
  apply BitVec.eq_of_toNat_eq
  simp only [resultSample, BitVec.toNat_setWidth, BitVec.toNat_append, BitVec.toNat_shiftLeft, BitVec.toNat_ofNat,
    Nat.shiftLeft_eq]
  simp

theorem started_sample_als (s : State) (readWhite : Bool) : started (.sample true readWhite) s =
    ({ s with dev := s.dev } : State).issue (.read .als) (.sampleAls readWhite) := rfl

theorem started_sample_white (s : State) : started (.sample false true) s =
    ({ s with dev := s.dev } : State).issue (.read .white) (.sampleWhite false) := rfl

/-- Settles O29: by the flags, the answer to the first read, and the answer to the second. -/
theorem sampleReads : Obligations.SampleReads := by
  intro s hs
  refine ⟨exec_eq_answered rfl hs rfl, fun a rest hans => ?als, fun w rest hans => ?white, fun a w rest hans => ?both,
    fun e rest b hans => exec_failed rfl hs (started_sample_als _ b) hans,
    fun e rest hans => exec_failed rfl hs (started_sample_white _) hans, fun a e rest hans => ?secondFailed,
    fun b hans => exec_unanswered rfl hs (started_sample_als _ b) hans,
    fun hans => exec_unanswered rfl hs (started_sample_white _) hans, fun a hans => ?secondUnanswered⟩
  case als =>
    rw [← resultSample_als]
    exact exec_ended rfl hs (started_sample_als _ false) hans fun u hu => by rw [← hu]; rfl
  case white =>
    rw [← resultSample_white]
    exact exec_ended rfl hs (started_sample_white _) hans fun u hu => by rw [← hu]; rfl
  case both =>
    rw [exec_transaction rfl hs (started_sample_als _ true) hans,
      driveWith_waiting (q := .read .white) (k := .sampleWhite true) _ _ rfl, driveWith_idle rest rfl]
    refine congrArg Host.Outcome.next ?_
    simp [State.complete, State.resumeWith, State.issue, State.record, State.finish, State.respond, busEvent,
      sensorAfter, resultSample, hs]
  case secondFailed =>
    rw [exec_transaction rfl hs (started_sample_als _ true) hans,
      driveWith_waiting (q := .read .white) (k := .sampleWhite true) _ _ rfl, driveWith_idle rest rfl]
    refine congrArg Host.Outcome.next ?_
    simp [State.complete, State.resumeWith, State.issue, State.record, State.raise, State.respond, busEvent,
      sensorAfter, errorResponse, hs]
  case secondUnanswered =>
    rw [exec_transaction rfl hs (started_sample_als _ true) hans]
    rfl

/-! ### POLL.EVENT -/

theorem getElem_eventCode (e : ThresholdEvent) :
    [ThresholdEvent.evNone, .evHigh, .evLow, .evBoth][(eventCode e).toNat]? = some e := by
  cases e <;> rfl

/-- The event of a word whose field is `v`. -/
theorem decodeEvent_of_field {w : Word} {v : Nat} {e : ThresholdEvent} (hv : (w.extractLsb' 14 2).toNat = v)
    (he : [ThresholdEvent.evNone, .evHigh, .evLow, .evBoth][v]? = some e) : decodeEvent w = e := by
  rw [← hv, ← eventCode_decodeEvent, getElem_eventCode] at he
  exact Option.some.inj he

/-- Settles O48: the flag decides whether there is a read, whose answer is stored and given as
`decodeEvent` reads it. -/
theorem pollEvent : Obligations.PollEvent := by
  intro s hs
  have hstart : s.dev.intEn = true →
      started .pollEvent s = ({ s with dev := s.dev } : State).issue (.read .int) .pollEvent := by
    intro hen
    rw [started_pollEvent, if_pos hen]
  refine ⟨fun hen => ?disabled, fun hen => ⟨fun w rest e hans he => ?event,
    fun t rest hans => exec_failed rfl hs (hstart hen) hans, fun hans => exec_unanswered rfl hs (hstart hen) hans⟩⟩
  case disabled =>
    refine exec_eq_answered rfl hs ?_
    rw [started_pollEvent, hen]
    rfl
  case event =>
    have hfield : (w.extractLsb' 14 2).toNat = (w >>> 14).toNat := by
      have hw := w.isLt
      simp only [BitVec.extractLsb'_toNat, BitVec.toNat_ushiftRight, Nat.shiftRight_eq_div_pow]
      omega
    have hdec := decodeEvent_of_field hfield he
    refine exec_ended rfl hs (hstart hen) hans fun u hu => ?_
    rw [← hu, ← resultEvent_decodeEvent, ← hdec]
    rfl

/-! ### CALIBRATE -/

/-- A count at the upper end is adjusted in the order of `upperStep`. -/
theorem calibrateAdjustment_upper {d : DeviceState} {w : Word} (h : classify d.gain d.it w = .upperEnd) :
    calibrateAdjustment d w = (upperStep d.gain d.it).map fun st => { d with gain := st.1, it := st.2 } := by
  obtain ⟨g, t, p, ie, sd, m, me, th, tl, al, wh, ev⟩ := d
  simp only [calibrateAdjustment, h]
  cases g <;> cases t <;> rfl

/-- A count at the lower end is adjusted in the order of `lowerStep`. -/
theorem calibrateAdjustment_lower {d : DeviceState} {w : Word} (h : classify d.gain d.it w = .lowerEnd) :
    calibrateAdjustment d w = (lowerStep d.gain d.it).map fun st => { d with gain := st.1, it := st.2 } := by
  obtain ⟨g, t, p, ie, sd, m, me, th, tl, al, wh, ev⟩ := d
  simp only [calibrateAdjustment, h]
  cases g <;> cases t <;> rfl

/-- A SWEET count ends CALIBRATE. -/
theorem resumeWith_sampling_sweet {u : State} {w : Word} (hl : ¬LowerEnd u.dev.gain u.dev.it w)
    (hu : ¬UpperEnd u.dev.gain u.dev.it w) :
    u.resumeWith .calibrateSampling w = { u with dev := { u.dev with als := some w } }.respond ⟨.ok, 0#64⟩ := by
  have hnone : calibrateAdjustment { u.dev with als := some w } w = none :=
    (calibrateAdjustment_none_iff _ w).mpr ((classify_eq_sweet_iff _ _ w).mpr ⟨hl, hu⟩)
  rcases judge_cases { u with dev := { u.dev with als := some w } } w with ⟨-, h⟩ | ⟨d, hd, -⟩
  · exact h
  · cases hnone.symm.trans hd

/-- The adjustment that CALIBRATE makes on a count, by the count's end. -/
def Adjusts (g : Gain) (t : IntegrationTime) (w : Word) (setting : Gain × IntegrationTime) : Prop :=
  (LowerEnd g t w ∧ lowerStep g t = some setting) ∨ (UpperEnd g t w ∧ upperStep g t = some setting)

/-- A count at an end stores the next setting and writes CONF. -/
theorem resumeWith_sampling_adjusts {u : State} {w : Word} {setting : Gain × IntegrationTime}
    (h : Adjusts u.dev.gain u.dev.it w setting) :
    u.resumeWith .calibrateSampling w =
      ({ u with dev := { u.dev with als := some w, gain := setting.1, it := setting.2 } } : State).issue
        (.write .conf (confLayout u.cfg { u.dev with als := some w, gain := setting.1, it := setting.2 }))
        .calibrateAdjusting := by
  have hadjust : calibrateAdjustment { u.dev with als := some w } w =
      some { u.dev with als := some w, gain := setting.1, it := setting.2 } := by
    rcases h with ⟨hend, hstep⟩ | ⟨hend, hstep⟩
    · rw [calibrateAdjustment_lower (d := { u.dev with als := some w }) ((classify_eq_lowerEnd_iff _ _ _).mpr hend),
        hstep]
      rfl
    · rw [calibrateAdjustment_upper (d := { u.dev with als := some w }) ((classify_eq_upperEnd_iff _ _ _).mpr hend),
        hstep]
      rfl
  rcases judge_cases { u with dev := { u.dev with als := some w } } w with ⟨hnone, -⟩ | ⟨d, hd, hjudge⟩
  · cases hnone.symm.trans hadjust
  · cases hd.symm.trans hadjust
    rw [← confImage_eq_layout]
    exact hjudge

theorem started_calibrate (s : State) :
    started .calibrate s = ({ s with dev := s.dev } : State).issue (.read .als) .calibrateSampling := rfl

/-- Settles O43: the first read, by its answer. -/
theorem calibrateFirstSample : Obligations.CalibrateFirstSample := by
  intro s hs
  refine ⟨fun w rest hans hl hu => ?_, fun e rest hans => exec_failed rfl hs (started_calibrate s) hans,
    fun hans => exec_unanswered rfl hs (started_calibrate s) hans⟩
  refine exec_ended rfl hs (started_calibrate s) hans fun u hu' => ?_
  rw [← hu'] at hl hu ⊢
  exact resumeWith_sampling_sweet hl hu

/-- CALIBRATE from a count at an end on: its CONF write is outstanding, the answers to come are for it. -/
theorem exec_calibrate_adjusts {s : State} {w : Word} {setting : Gain × IntegrationTime} {rest : List Answer}
    (hs : s.seq = .idle) (h : Adjusts s.dev.gain s.dev.it w setting) (hans : s.answers = .ok w :: rest) :
    exec .calibrate s = .next (driveWith rest
      (({ s with
        dev := { s.dev with als := some w, gain := setting.1, it := setting.2 }
        trace := s.trace ++ [.read .als (.ok w)] } : State).issue
          (.write .conf (confLayout s.cfg { s.dev with als := some w, gain := setting.1, it := setting.2 }))
          .calibrateAdjusting)) := by
  have hcomplete := resumeWith_sampling_adjusts (u := s.record (.read .als) (.ok w)) h
  rw [exec_transaction rfl hs (started_calibrate s) hans]
  exact congrArg (fun u => Host.Outcome.next (driveWith rest u)) hcomplete

/-- Settles O44: after the adjustment CALIBRATE reads again, as it does when given. -/
theorem calibrateAdjusts : Obligations.CalibrateAdjusts := by
  intro s w setting hs h
  refine ⟨fun v rest hans => ?ok, fun e rest hans => ?err, fun hans => ?unanswered⟩
  case ok =>
    have hs' : (s.afterAdjustment w setting rest).seq = .idle := hs
    rw [exec_calibrate_adjusts hs h hans, driveWith_waiting _ _ (issue_seq _ _ _), exec_idle _ rfl hs', State.drive]
    have hanswers : (started .calibrate (s.afterAdjustment w setting rest)).answers = rest := rfl
    rw [hanswers, ← driveWith_answers rest rest]
    refine congrArg (fun u => Host.Outcome.next (driveWith rest u)) ?_
    simp [State.complete, State.resumeWith, State.issue, State.record, started, State.afterAdjustment, busEvent,
      sensorAfter, regKey, regCode]
  case err =>
    rw [exec_calibrate_adjusts hs h hans, driveWith_waiting _ _ (issue_seq _ _ _), complete_err,
      driveWith_idle _ (raise_seq _ _)]
    obtain ⟨dev, seq, sensor, cmds, answers, resetIn, responses, trace, cfg⟩ := s
    cases hs
    refine congrArg Host.Outcome.next ?_
    simp [State.raise, State.respond, State.issue, State.record, busEvent, sensorAfter, regKey, regCode, errorResponse]
  case unanswered =>
    rw [exec_calibrate_adjusts hs h hans]
    rfl

end Sys2Proof.Proofs

/-! CALIBRATE as a whole (43_autorange_ops R197, R198), the bus rows (30_encoding R73) and the boot duty
(70_reset_and_hazards R253). -/

namespace Sys2Proof.Proofs
open Sys2Proof Sys2Proof.Machine Sys2Proof.Laws

/-! ### CALIBRATE ends on a SWEET count -/

/-- The stored count is SWEET at the setting in force. -/
def StoredSweet (d : DeviceState) : Prop := ∃ w, d.als = some w ∧ ¬LowerEnd d.gain d.it w ∧ ¬UpperEnd d.gain d.it w

/-- CALIBRATE given in `s`, on its way: it waits for a count or for a CONF write with nothing answered, or it has
answered, OK on a SWEET count only. -/
inductive Calibrating (s : State) (t : State) : Prop
  | sampling (q : Request) (hseq : t.seq = .waiting q .calibrateSampling) (hresp : t.responses = s.responses)
  | adjusting (q : Request) (hseq : t.seq = .waiting q .calibrateAdjusting) (hresp : t.responses = s.responses)
  | ended (hseq : t.seq = .idle) (hsweet : t.responses = s.responses ++ [⟨.ok, 0#64⟩] → StoredSweet t.dev)

/-- A count stored and judged. -/
theorem Calibrating.judge {s t : State} {w : Word} (hals : t.dev.als = some w) (hresp : t.responses = s.responses) :
    Calibrating s (t.judge w) := by
  rcases judge_cases t w with ⟨hnone, h⟩ | ⟨d, -, h⟩ <;> rw [h]
  · exact .ended (finish_seq _ _) fun _ =>
      ⟨w, hals, (classify_eq_sweet_iff _ _ w).mp ((calibrateAdjustment_none_iff _ w).mp hnone)⟩
  · exact .adjusting _ (issue_seq _ _ _) hresp

/-- A failed transaction answers no OK. -/
theorem Calibrating.failed {s t : State} (q : Request) (k : Resume) (e : TransportError)
    (hresp : t.responses = s.responses) : Calibrating s (t.complete q k (.err e)) := by
  refine .ended rfl fun hok => ?_
  rw [complete_err, raise_responses, record_responses, hresp] at hok
  cases List.append_cancel_left hok

theorem Calibrating.complete {s t : State} {q : Request} {k : Resume} (a : Answer) (hseq : t.seq = .waiting q k)
    (h : Calibrating s t) : Calibrating s (t.complete q k a) := by
  cases h with
  | sampling q' hseq' hresp =>
    cases hseq.symm.trans hseq'
    cases a with
    | err e => exact .failed q _ e hresp
    | ok w => exact .judge rfl hresp
  | adjusting q' hseq' hresp =>
    cases hseq.symm.trans hseq'
    cases a with
    | err e => exact .failed q _ e hresp
    | ok w => exact .sampling (.read .als) rfl hresp
  | ended hidle => cases hseq.symm.trans hidle

theorem Calibrating.driveWith {s : State} (as : List Answer) {t : State} (h : Calibrating s t) :
    Calibrating s (driveWith as t) := by
  refine driveWith_keeps (P := Calibrating s) (fun u bs hu => ?_) (fun u q k a hseq hu => hu.complete a hseq) as t h
  cases hu with
  | sampling q hseq hresp => exact .sampling q hseq hresp
  | adjusting q hseq hresp => exact .adjusting q hseq hresp
  | ended hseq hsweet => exact .ended hseq hsweet

/-- Settles O45: `Calibrating` holds along the answers, and an answer of its own is no wait. -/
theorem calibrateEndsSweet : Obligations.CalibrateEndsSweet := by
  intro s t hs hexec hok
  obtain ⟨-, rfl⟩ := exec_next_idle hs hexec
  have hstart : Calibrating s (started .calibrate s) := .sampling (.read .als) rfl rfl
  have hlonger : (started .calibrate s).drive.responses ≠ s.responses := by simp [hok]
  cases hstart.driveWith (started .calibrate s).answers with
  | sampling _ _ hresp => exact absurd hresp hlonger
  | adjusting _ _ hresp => exact absurd hresp hlonger
  | ended _ hsweet => exact hsweet hok

/-! ### CALIBRATE in one direction -/

/-- The head of answers that are all `ok`. -/
theorem exists_answered {as : List Answer} (hlen : 1 ≤ as.length) (hok : ∀ a ∈ as, ∃ w, a = .ok w) :
    ∃ w rest, as = .ok w :: rest := by
  obtain ⟨a, rest, rfl⟩ := List.exists_cons_of_length_pos hlen
  obtain ⟨w, rfl⟩ := hok a List.mem_cons_self
  exact ⟨w, rest, rfl⟩

/-- What `calibrate_ends_of_rank` asks of counts and settings: a count that occurs is SWEET, or its adjustment comes
nearer to the end of the way. -/
def Descends (occurs : Word → Prop) (rank : Gain → IntegrationTime → Nat) : Prop :=
  ∀ g t w, occurs w → (¬LowerEnd g t w ∧ ¬UpperEnd g t w) ∨
    ∃ setting, Adjusts g t w setting ∧ rank setting.1 setting.2 + 1 = rank g t

/-- CALIBRATE ends with OK after at most as many adjustments as the setting's rank, each two transactions, and one last
read. -/
theorem calibrate_ends_of_rank {occurs : Word → Prop} {rank : Gain → IntegrationTime → Nat}
    (hdesc : Descends occurs rank) (n : Nat) : ∀ s : State, s.seq = .idle → rank s.dev.gain s.dev.it ≤ n →
      2 * n + 1 ≤ s.answers.length → (∀ a ∈ s.answers, ∃ w, a = .ok w) →
      (∀ k w, s.answers[2 * k]? = some (.ok w) → occurs w) →
      ∃ t, exec .calibrate s = .next t ∧ t.seq = .idle ∧ t.responses = s.responses ++ [⟨.ok, 0#64⟩] ∧
        t.trace.length ≤ s.trace.length + (2 * n + 1) := by
  induction n with
  | zero =>
    intro s hs hrank hlen hok hoccurs
    obtain ⟨w, rest, hans⟩ := exists_answered hlen hok
    rcases hdesc s.dev.gain s.dev.it w (hoccurs 0 w (by simp [hans])) with ⟨hl, hu⟩ | ⟨setting, -, hnext⟩
    · exact ⟨_, (calibrateFirstSample s hs).1 w rest hans hl hu, hs, rfl, by simp⟩
    · omega
  | succ n ih =>
    intro s hs hrank hlen hok hoccurs
    obtain ⟨w, rest, hans⟩ := exists_answered (by omega) hok
    rcases hdesc s.dev.gain s.dev.it w (hoccurs 0 w (by simp [hans])) with ⟨hl, hu⟩ | ⟨setting, hadjusts, hnext⟩
    · exact ⟨_, (calibrateFirstSample s hs).1 w rest hans hl hu, hs, rfl, by simp⟩
    · rw [hans, List.forall_mem_cons] at hok
      rw [hans, List.length_cons] at hlen
      obtain ⟨v, rest', rfl⟩ := exists_answered (by omega) hok.2
      rw [List.length_cons] at hlen
      obtain ⟨t, hexec, hidle, hresp, htrace⟩ := ih (s.afterAdjustment w setting rest') hs
        (show rank setting.1 setting.2 ≤ n by omega) (show 2 * n + 1 ≤ rest'.length by omega)
        (fun a ha => hok.2 a (List.mem_cons_of_mem _ ha)) (fun k u hu => hoccurs (k + 1) u (by rw [hans]; exact hu))
      refine ⟨t, ((calibrateAdjusts s w setting hs hadjusts).1 v rest' hans).trans hexec, hidle, hresp, ?_⟩
      have htwo : (s.afterAdjustment w setting rest').trace.length = s.trace.length + 2 := List.length_append
      omega

/-- How many adjustments towards the smallest gain and integration time there are. -/
def roomDown (g : Gain) (t : IntegrationTime) : Nat := gainLadder.idxOf g + itLadder.idxOf t

/-- How many adjustments towards the largest gain and integration time there are. -/
def roomUp (g : Gain) (t : IntegrationTime) : Nat := 8 - roomDown g t

theorem upperStep_roomDown (g : Gain) (t : IntegrationTime) (h : g ≠ .eighth ∨ t ≠ .ms25) :
    ∃ setting, upperStep g t = some setting ∧ roomDown setting.1 setting.2 + 1 = roomDown g t := by
  revert h
  cases g <;> cases t <;> decide

theorem lowerStep_roomUp (g : Gain) (t : IntegrationTime) (h : g ≠ .two ∨ t ≠ .ms800) :
    ∃ setting, lowerStep g t = some setting ∧ roomUp setting.1 setting.2 + 1 = roomUp g t := by
  revert h
  cases g <;> cases t <;> decide

theorem roomDown_le (g : Gain) (t : IntegrationTime) : roomDown g t ≤ 8 := by
  cases g <;> cases t <;> decide

/-- Counts of at least 100 only ever lower the setting. -/
theorem descends_down : Descends (fun w => 100 ≤ w.toNat) roomDown := by
  intro g t w hw
  by_cases hu : UpperEnd g t w
  · obtain ⟨setting, hstep, hroom⟩ := upperStep_roomDown g t hu.2
    exact .inr ⟨setting, .inr ⟨hu, hstep⟩, hroom⟩
  · exact .inl ⟨fun hl => absurd hl.1 (Nat.not_lt.mpr hw), hu⟩

/-- Counts of at most 10000 only ever raise it. -/
theorem descends_up : Descends (fun w => w.toNat ≤ 10000) roomUp := by
  intro g t w hw
  by_cases hl : LowerEnd g t w
  · obtain ⟨setting, hstep, hroom⟩ := lowerStep_roomUp g t hl.2
    exact .inr ⟨setting, .inl ⟨hl, hstep⟩, hroom⟩
  · exact .inl ⟨hl, fun hu => absurd hu.1 (Nat.not_lt.mpr hw)⟩

/-- Settles O46: in one direction there is room for eight adjustments. -/
theorem calibrateEndsInOneDirection : Obligations.CalibrateEndsInOneDirection := by
  intro s hs hlen hok hcounts
  rcases hcounts with hcounts | hcounts
  · exact calibrate_ends_of_rank descends_down 8 s hs (roomDown_le _ _) hlen hok hcounts
  · exact calibrate_ends_of_rank descends_up 8 s hs (Nat.sub_le _ _) hlen hok hcounts

/-! ### CALIBRATE on alternating counts -/

/-- Settles O47: 50 raises the gain to 2, 20000 lowers it to 1 again, and CALIBRATE goes on as if given anew. -/
theorem calibrateNeedNotEnd : Obligations.CalibrateNeedNotEnd := by
  intro s n
  induction n generalizing s with
  | zero =>
    intro hs hg ht hans
    exact ⟨_, exec_unanswered rfl hs (started_calibrate s) hans, rfl, hg, ht, rfl, rfl⟩
  | succ n ih =>
    intro hs hg ht hans
    have hanswers : s.answers = .ok 50#16 :: .ok 0#16 :: .ok 20000#16 :: .ok 0#16 :: alternatingAnswers n := hans
    have hlow : Adjusts s.dev.gain s.dev.it 50#16 (.two, .ms100) := by
      rw [hg, ht]
      exact .inl ⟨by unfold LowerEnd; decide, rfl⟩
    have hhigh : Adjusts .two .ms100 20000#16 (.one, .ms100) := .inr ⟨by unfold UpperEnd; decide, rfl⟩
    let u := s.afterAdjustment 50#16 (.two, .ms100) (.ok 20000#16 :: .ok 0#16 :: alternatingAnswers n)
    obtain ⟨t, hexec, hseq, hgain, hit, hresp, htrace⟩ :=
      ih (u.afterAdjustment 20000#16 (.one, .ms100) (alternatingAnswers n)) hs rfl rfl rfl
    refine ⟨t, ?_, hseq, hgain, hit, hresp, ?_⟩
    · rw [(calibrateAdjusts s _ _ hs hlow).1 _ _ hanswers, (calibrateAdjusts u _ _ hs hhigh).1 _ _ rfl, hexec]
    · have hfour : (u.afterAdjustment 20000#16 (.one, .ms100) (alternatingAnswers n)).trace.length =
          s.trace.length + 4 := by simp [u, State.afterAdjustment]
      omega

/-! ### The bus rows -/

/-- A bus row, its transaction outstanding in whichever operation. -/
theorem exec_outstanding {i : Instr} {s : State} {q : Request} {k k' : Resume} {w : Word}
    (hi : outstandingFor i = some (.waiting q k, w)) (hs : s.seq = .waiting q k') :
    exec i s = .next (s.complete q k' (.ok w)).drive := by
  rw [exec_busRow hi, transact_waiting w hs]

/-- A bus row that ends the operation. -/
theorem exec_outstanding_ended {i : Instr} {s : State} {q : Request} {k k' : Resume} {w : Word} {d : DeviceState}
    {r : Response} (hi : outstandingFor i = some (.waiting q k, w)) (hs : s.seq = .waiting q k')
    (hend : ∀ u : State, u.dev = s.dev → u.resumeWith k' w = { u with dev := d }.respond r) :
    exec i s = .next { s with
      dev := d
      seq := .idle
      trace := s.trace ++ [busEvent q (.ok w)]
      sensor := sensorAfter q (.ok w) s.sensor
      responses := s.responses ++ [r] } := by
  have hcomplete : s.complete q k' (.ok w) = { s.record q (.ok w) with dev := d }.respond r := hend _ rfl
  rw [exec_outstanding hi hs, hcomplete, drive_respond]
  rfl

/-- A bus row that answers the first transaction of an operation: that operation, given with this answer first. -/
theorem exec_outstanding_first {i j : Instr} {s : State} {q : Request} {k k' : Resume} {w : Word}
    (hi : outstandingFor i = some (.waiting q k, w)) (hs : s.seq = .waiting q k') (hj : isBusRow j = false)
    (hstart : ∀ u : State, started j u = ({ u with dev := u.dev } : State).issue q k') :
    exec i s = exec j { s with seq := .idle, answers := .ok w :: s.answers } := by
  rw [exec_outstanding hi hs, exec_transaction hj rfl (hstart _) rfl]
  have hseq := complete_seq { s with answers := .ok w :: s.answers } .idle q k' (.ok w)
  have hans := complete_answers s (.ok w :: s.answers) q k' (.ok w)
  have hkeep : (s.complete q k' (.ok w)).answers = s.answers := (Turn.complete s q k' (.ok w)).answers
  refine congrArg Host.Outcome.next ?_
  rw [State.drive, hkeep]
  show _ = driveWith s.answers (({ s with seq := .idle, answers := .ok w :: s.answers } : State).complete q k' (.ok w))
  rw [hseq, hans]
  exact (driveWith_answers _ _ _).symm

/-- Settles O49: a row that ends its operation, one by one (`exec_outstanding_ended`); a CONF row in SET.POWER leaves
the power-saving part (`setterEffect_setPowerSaving`), in CALIBRATE the next read; a first read goes on as its operation
does (`exec_outstanding_first`). -/
theorem busRowsComplete : Obligations.BusRowsComplete := by
  intro s
  refine ⟨fun g t p i sd => (decode_busRow _ _).trans (decodeWord_confOfCodes g t p i sd),
    fun g t p i sd hs => exec_outstanding_ended rfl hs fun u hu => by rw [← hu]; rfl,
    fun g t p i sd enable mode hs => ?powerSaving, fun g t p i sd hs => ?adjusting,
    fun h => decode_busRow _ _, fun h hs => exec_outstanding_ended rfl hs fun u hu => by rw [← hu]; rfl,
    fun l => decode_busRow _ _, fun l hs => exec_outstanding_ended rfl hs fun u hu => by rw [← hu]; rfl,
    fun m e => (decode_busRow _ _).trans (decodeWord_psmOfCodes m e),
    fun m e hs => exec_outstanding_ended rfl hs fun u hu => by rw [← hu]; rfl,
    fun a => decode_busRow _ _, fun a hs => ?als,
    fun a hs => exec_outstanding_first rfl hs rfl fun u => started_sample_als u true,
    fun a hs => exec_outstanding_first rfl hs rfl started_calibrate,
    fun w => decode_busRow _ _, fun w hs => ?white,
    fun w hs => exec_outstanding_ended rfl hs fun u hu => by rw [← hu]; rfl,
    fun v x => (decode_busRow _ _).trans (decodeWord_intOfFields v x), fun v x e hs he => ?int⟩
  case powerSaving =>
    refine setterEffect_setPowerSaving rfl ?_
    rw [exec_outstanding rfl hs, complete_powerSaving]
  case adjusting =>
    rw [exec_outstanding rfl hs, exec_idle _ rfl rfl]
    rfl
  case als =>
    rw [← resultSample_als]
    exact exec_outstanding_ended rfl hs fun u hu => by rw [← hu]; rfl
  case white =>
    rw [← resultSample_white]
    exact exec_outstanding_ended rfl hs fun u hu => by rw [← hu]; rfl
  case int =>
    have hfield : (intOfFields v x).extractLsb' 14 2 = v := extract_append_high v x
    have hdec := decodeEvent_of_field (w := intOfFields v x) (congrArg BitVec.toNat hfield) he
    have hresult : resultEvent (decodeEvent (intOfFields v x)) = v.setWidth 64 := by
      rw [resultEvent, eventCode_decodeEvent, hfield]
    refine exec_outstanding_ended rfl hs fun u hu => ?_
    rw [← hu, ← hresult, ← hdec]
    rfl

/-! ### The boot duty -/

theorem run_succ {n : Nat} {s t : State} (h : step s = .next t) :
    Sys2Proof.core.run (n + 1) s = Sys2Proof.core.run n t := by
  have hstep : Sys2Proof.core.step s = .next t := h
  simp only [Host.Core.run, hstep]

/-- A step with a setter at the command port and `ok` at the transport's. -/
theorem step_setter {s : State} {c : Command} {cmds : List Command} {v : Word} {answers : List Answer} {i : Instr}
    {unchanged : Prop} {d : DeviceState} {reg : SensorReg} {w : Word} (hreset : s.resetIn = false) (hs : s.seq = .idle)
    (hcmds : s.cmds = c :: cmds) (hans : s.answers = .ok v :: answers) (hdec : decodeCommand c = .ok i)
    (heffect : SetterEffect (exec i { s with cmds := cmds }) { s with cmds := cmds } unchanged d reg w)
    (hne : ¬unchanged) : step s = .next (({ s with cmds := cmds } : State).afterWrite d reg w none answers) := by
  rw [step_run (fetch_command hreset hs hcmds hdec)]
  exact heffect.2.1 hne v answers hans

theorem setSd_effect (s : State) (b : Bool) (hs : s.seq = .idle) :
    SetterEffect (exec (.setSd b) s) s (s.dev.sd = b) { s.dev with sd := b } .conf
      (confLayout s.cfg { s.dev with sd := b }) := by
  obtain ⟨-, -, -, -, hsd, -⟩ := setFlags s b hs
  exact hsd

theorem setPsmen_effect (s : State) (b : Bool) (hs : s.seq = .idle) :
    SetterEffect (exec (.setPsmen b) s) s (s.dev.psmEn = b) { s.dev with psmEn := b } .psm
      (psmLayout s.cfg { s.dev with psmEn := b }) := by
  obtain ⟨-, -, -, -, -, hen⟩ := setFlags s b hs
  exact hen

/-- Settles O55: the setters follow the discipline of `setFlags`, each changing its flag. -/
theorem bootDutyEstablishesAgreement : Obligations.BootDutyEstablishesAgreement := by
  rintro ⟨⟨gain, it, pers, intEn, sd, psm, psmEn, thrHi, thrLo, als, white, event⟩, seq, sensor, cmds, answers, resetIn,
    responses, trace, cfg⟩ a b c d hs hreset hsd hen hcmds hans
  subst hs hreset hsd hen hcmds hans
  rw [run_succ (step_setter rfl rfl rfl rfl (by decide) (setSd_effect _ true rfl) Bool.false_ne_true),
    run_succ (step_setter rfl rfl rfl rfl (by decide) (setSd_effect _ false rfl) Bool.true_eq_false.mp),
    run_succ (step_setter rfl rfl rfl rfl (by decide) (setPsmen_effect _ true rfl) Bool.false_ne_true),
    run_succ (step_setter rfl rfl rfl rfl (by decide) (setPsmen_effect _ false rfl) Bool.true_eq_false.mp)]
  refine ⟨_, rfl, rfl, rfl, ?_, sensorRead_write_same _ _ _⟩
  refine (sensorRead_write_other _ _ _ _ (by decide)).trans ((sensorRead_write_other _ _ _ _ (by decide)).trans ?_)
  exact sensorRead_write_same _ _ _

end Sys2Proof.Proofs

/-! The field codec's round trip (30_encoding R71) and the matching of numeric operands (30_encoding R70). -/

namespace Sys2Proof.Proofs
open Sys2Proof Sys2Proof.Machine Sys2Proof.Laws

/-! ### The fields of the CONF and PSM words -/

theorem fieldCode_encodeField {f : Machine.Field} (hf : f.offset + f.width ≤ 16) (code : BitVec f.width) :
    fieldCode f (encodeField f code) = code := by
  rw [fieldCode_eq_extract (by omega), encodeField_eq_shiftLeft (by omega)]
  ext i hi
  simp only [BitVec.getElem_extractLsb', BitVec.getLsbD_shiftLeft, BitVec.getLsbD_setWidth,
    Nat.add_sub_cancel_left]
  simp [show f.offset + i < 16 by omega, show i < 16 by omega, BitVec.getLsbD_eq_getElem hi]

/-- The fields of a CONF word laid out from codes: the bus port reads them so. -/
theorem fields_confOfCodes (g : BitVec 2) (t : BitVec 4) (p : BitVec 2) (i sd : BitVec 1) :
    fieldCode fieldGain (confOfCodes g t p i sd) = g ∧ fieldCode fieldIt (confOfCodes g t p i sd) = t ∧
      fieldCode fieldPers (confOfCodes g t p i sd) = p ∧ fieldCode fieldIntEn (confOfCodes g t p i sd) = i ∧
      fieldCode fieldSd (confOfCodes g t p i sd) = sd := by
  have h := decodeWord_confOfCodes g t p i sd
  simp only [decodeWord, BitVec.toNat_ofNat, Nat.zero_mod] at h
  split at h
  · injection h with h
    injection h with hg ht hp hi hsd
    simp only [fieldCode_eq_extract (f := fieldGain) (by decide), fieldCode_eq_extract (f := fieldIt) (by decide),
      fieldCode_eq_extract (f := fieldPers) (by decide), fieldCode_eq_extract (f := fieldIntEn) (by decide),
      fieldCode_eq_extract (f := fieldSd) (by decide)]
    exact ⟨hg, ht, hp, hi, hsd⟩
  · cases h

theorem fields_psmOfCodes (m : BitVec 2) (e : BitVec 1) :
    fieldCode fieldPsm (psmOfCodes m e) = m ∧ fieldCode fieldPsmEn (psmOfCodes m e) = e := by
  have h := decodeWord_psmOfCodes m e
  simp only [decodeWord, BitVec.toNat_ofNat, Nat.reducePow, Nat.reduceMod] at h
  split at h
  · injection h with h
    injection h with hm he
    simp only [fieldCode_eq_extract (f := fieldPsm) (by decide), fieldCode_eq_extract (f := fieldPsmEn) (by decide)]
    exact ⟨hm, he⟩
  · cases h

theorem decodeFlag_of_field {f : Machine.Field} {w : Word} {b : Bool} (hf : f.width = 1)
    (h : fieldCode f w = (BitVec.ofBool b).setWidth f.width) : decodeFlag f w = b := by
  obtain ⟨offset, width⟩ := f
  cases hf
  rw [decodeFlag, h]
  cases b <;> rfl

/-- Settles O19: the tables are injective, and the words' fields are the codes they are laid out from. -/
theorem fieldsRoundTrip : Obligations.FieldsRoundTrip := by
  intro p hp
  obtain ⟨hgain, hit, hpers, hpsm⟩ := tables_nodup hp
  have gain (g : Gain) : valueOfCode (gainCode p) gainLadder (gainCode p g) = some g :=
    valueOfCode_table hgain (by cases g <;> decide)
  have it (t : IntegrationTime) : valueOfCode (itCode p) itLadder (itCode p t) = some t :=
    valueOfCode_table hit (mem_itLadder t)
  have pers (c : Persistence) : valueOfCode (persCode p) persLadder (persCode p c) = some c :=
    valueOfCode_table hpers (by cases c <;> decide)
  have psm (m : PowerSavingMode) : valueOfCode (psmCode p) psmLadder (psmCode p m) = some m :=
    valueOfCode_table hpsm (by cases m <;> decide)
  refine ⟨fun g => ?_, fun t => ?_, fun c => ?_, fun m => ?_, fun d => ?_⟩
  · exact (congrArg _ (fieldCode_encodeField (by decide) _)).trans (gain g)
  · exact (congrArg _ (fieldCode_encodeField (by decide) _)).trans (it t)
  · exact (congrArg _ (fieldCode_encodeField (by decide) _)).trans (pers c)
  · exact (congrArg _ (fieldCode_encodeField (by decide) _)).trans (psm m)
  · rw [confImage_eq_layout, psmImage_eq_layout]
    obtain ⟨hg, ht, hc, hi, hsd⟩ := fields_confOfCodes (gainCode p d.gain) (itCode p d.it) (persCode p d.pers)
      (BitVec.ofBool d.intEn) (BitVec.ofBool d.sd)
    obtain ⟨hm, he⟩ := fields_psmOfCodes (psmCode p d.psm) (BitVec.ofBool d.psmEn)
    exact ⟨(congrArg _ hg).trans (gain _), (congrArg _ ht).trans (it _), (congrArg _ hc).trans (pers _),
      decodeFlag_of_field rfl hi, decodeFlag_of_field rfl hsd, (congrArg _ hm).trans (psm _),
      decodeFlag_of_field rfl he⟩

/-! ### Matching a numeric operand -/

theorem numValue_fin (neg : Bool) (mag : Nat) :
    numValue (.fin neg mag) = some ((signedMag neg mag : ℚ) / 2 ^ 1074) := by
  cases neg <;> simp [numValue, signedMag]

theorem exists_fin_of_numValue {x : Machine.Num} {q : ℚ} (h : numValue x = some q) :
    ∃ neg mag, x = .fin neg mag ∧ q = (signedMag neg mag : ℚ) / 2 ^ 1074 := by
  cases x with
  | nan => cases h
  | inf neg => cases h
  | fin neg mag =>
    rw [numValue_fin] at h
    exact ⟨neg, mag, rfl, (Option.some.inj h).symm⟩

theorem natAbs_signedMag (neg : Bool) (mag : Nat) : (signedMag neg mag).natAbs = mag := by
  cases neg <;> simp [signedMag]

/-- `closeTo` is closeness of the exact values. -/
theorem closeTo_iff {x : Machine.Num} {q : ℚ} (h : numValue x = some q) (v : Nat) :
    closeTo x v = true ↔ |q - (v : ℚ) / 2 ^ 1074| ≤ max |q| |(v : ℚ) / 2 ^ 1074| / 10 ^ 9 := by
  obtain ⟨neg, mag, rfl, rfl⟩ := exists_fin_of_numValue h
  have hunit : (0 : ℚ) < 2 ^ 1074 := by positivity
  have hmag : |(signedMag neg mag : ℚ)| = mag := by rw [← Int.cast_abs, Int.abs_eq_natAbs, natAbs_signedMag]; rfl
  have hdist : |(signedMag neg mag : ℚ) - v| = ((signedMag neg mag - v).natAbs : ℚ) := by
    rw [← Int.cast_natCast (R := ℚ) (Int.natAbs _), ← Int.abs_eq_natAbs, Int.cast_abs, Int.cast_sub, Int.cast_natCast]
  rw [← sub_div, abs_div, abs_div, abs_div, abs_of_pos hunit, max_div_div_right hunit.le, hmag, hdist, Nat.abs_cast,
    div_right_comm, div_le_div_iff_of_pos_right hunit, le_div_iff₀ (by norm_num), closeTo, decide_eq_true_iff,
    relTolDenominator, mul_comm]
  exact_mod_cast Iff.rfl

theorem equalTo_iff {x : Machine.Num} {q : ℚ} (h : numValue x = some q) (v : Nat) :
    equalTo x v = true ↔ q = (v : ℚ) / 2 ^ 1074 := by
  obtain ⟨neg, mag, rfl, rfl⟩ := exists_fin_of_numValue h
  rw [equalTo, decide_eq_true_iff, div_left_inj' (by positivity)]
  exact_mod_cast Iff.rfl

theorem gainValue_eq (g : Gain) : gainValue g = (gainUnits g : ℚ) / 2 ^ 1074 := by
  rw [gainValue, gainUnits, Nat.cast_mul, Nat.cast_pow, Nat.cast_ofNat, div_eq_div_iff (by norm_num) (by positivity),
    mul_assoc, show (1074 : Nat) = 1071 + 3 from rfl, pow_add]
  norm_num

theorem natUnits_value (n : Nat) : ((natUnits n : Nat) : ℚ) / 2 ^ 1074 = n := by
  rw [natUnits, Nat.cast_mul, Nat.cast_pow, Nat.cast_ofNat, mul_div_cancel_right₀ _ (by positivity)]

/-- Two enumerators of a set are the same, or one's value is at least twice the other's. -/
def Spaced (u v : Nat) : Prop := u = v ∨ 2 * u ≤ v ∨ 2 * v ≤ u

theorem Spaced.scale {u v : Nat} (h : Spaced u v) (c : Nat) : Spaced (u * c) (v * c) := by
  rcases h with rfl | h | h
  · exact .inl rfl
  · exact .inr (.inl (by rw [← mul_assoc]; exact Nat.mul_le_mul_right c h))
  · exact .inr (.inr (by rw [← mul_assoc]; exact Nat.mul_le_mul_right c h))

/-- No number is close to two values of a ladder. -/
theorem closeTo_unique {x : Machine.Num} {u v : Nat} (hu : 0 < u) (hv : 0 < v) (hspaced : Spaced u v)
    (hxu : closeTo x u = true) (hxv : closeTo x v = true) : u = v := by
  cases x with
  | nan => cases hxu
  | inf neg => cases hxu
  | fin neg mag =>
    have hmag := natAbs_signedMag neg mag
    replace hxu := of_decide_eq_true hxu
    replace hxv := of_decide_eq_true hxv
    rw [relTolDenominator] at hxu hxv
    rcases hspaced with h | h | h
    · exact h
    · omega
    · omega

theorem find?_eq_some_iff_of_unique {α : Type} {l : List α} {p : α → Bool} (hmem : ∀ a, a ∈ l)
    (huniq : ∀ a b, p a = true → p b = true → a = b) (a : α) : l.find? p = some a ↔ p a = true := by
  constructor
  · exact List.find?_some
  · intro ha
    cases hfind : l.find? p with
    | none => exact absurd ha (List.find?_eq_none.mp hfind a (hmem a))
    | some b => rw [huniq b a (List.find?_some hfind) ha]

theorem gain_spaced (g g' : Gain) : Spaced (gainEighths g) (gainEighths g') := by
  unfold Spaced
  cases g <;> cases g' <;> decide

theorem it_spaced (t t' : IntegrationTime) : Spaced (itMillis t) (itMillis t') := by
  unfold Spaced
  cases t <;> cases t' <;> decide

theorem gainEighths_injective {g g' : Gain} (h : gainEighths g = gainEighths g') : g = g' := by
  revert h
  cases g <;> cases g' <;> decide

theorem itMillis_injective {t t' : IntegrationTime} (h : itMillis t = itMillis t') : t = t' := by
  revert h
  cases t <;> cases t' <;> decide

theorem persCount_injective {c c' : Persistence} (h : persCount c = persCount c') : c = c' := by
  revert h
  cases c <;> cases c' <;> decide

theorem gainUnits_pos (g : Gain) : 0 < gainUnits g := Nat.mul_pos (by cases g <;> decide) (by positivity)

theorem itUnits_pos (t : IntegrationTime) : 0 < natUnits (itMillis t) :=
  Nat.mul_pos (by cases t <;> decide) (by positivity)

/-- Settles O20: at most one value of a ladder is close to a number, so the first found is the one that is. -/
theorem matchingIsCloseness : Obligations.MatchingIsCloseness := by
  intro x
  refine ⟨fun q hq => ⟨fun g => ?gain, fun t => ?it, fun c => ?pers⟩, fun hnone => ?none⟩
  case gain =>
    rw [gainValue_eq, ← closeTo_iff hq]
    refine find?_eq_some_iff_of_unique (fun g => by cases g <;> decide) (fun g g' hg hg' => ?_) g
    have hunits := closeTo_unique (gainUnits_pos g) (gainUnits_pos g') ((gain_spaced g g').scale _) hg hg'
    exact gainEighths_injective (Nat.eq_of_mul_eq_mul_right (by positivity) hunits)
  case it =>
    rw [← natUnits_value (itMillis t), ← closeTo_iff hq]
    refine find?_eq_some_iff_of_unique mem_itLadder (fun t t' ht ht' => ?_) t
    have hunits := closeTo_unique (itUnits_pos t) (itUnits_pos t') ((it_spaced t t').scale _) ht ht'
    exact itMillis_injective (Nat.eq_of_mul_eq_mul_right (by positivity) hunits)
  case pers =>
    rw [← natUnits_value (persCount c), ← equalTo_iff hq]
    refine find?_eq_some_iff_of_unique (fun c => by cases c <;> decide) (fun c c' hc hc' => ?_) c
    rw [equalTo_iff hq, natUnits_value] at hc hc'
    exact persCount_injective (Nat.cast_injective (hc.symm.trans hc'))
  case none =>
    have hnot (v : Nat) : closeTo (numOfBits x) v = false ∧ equalTo (numOfBits x) v = false := by
      cases hx : numOfBits x with
      | nan => exact ⟨rfl, rfl⟩
      | inf neg => exact ⟨rfl, rfl⟩
      | fin neg mag => rw [hx, numValue_fin] at hnone; cases hnone
    exact ⟨List.find?_eq_none.mpr fun g _ => by simp [hnot], List.find?_eq_none.mpr fun t _ => by simp [hnot],
      List.find?_eq_none.mpr fun c _ => by simp [hnot]⟩

end Sys2Proof.Proofs

/-! The rounding of the numerics (00_scope R8, decision D6): nearest, ties to the even significand. -/

namespace Sys2Proof.Proofs
open Sys2Proof Sys2Proof.Machine Sys2Proof.Laws

/-! ### Rounding a whole number of units -/

/-- `roundHalfEven` is off by at most half a unit, and by exactly half only with an even result. -/
theorem roundHalfEven_spec (m s : Nat) :
    2 * |(roundHalfEven m s * 2 ^ s : ℤ) - m| ≤ 2 ^ s ∧
      (2 * |(roundHalfEven m s * 2 ^ s : ℤ) - m| = 2 ^ s → 2 ∣ roundHalfEven m s) := by
  have hdiv : (m : ℤ) = (m / 2 ^ s : Nat) * 2 ^ s + (m % 2 ^ s : Nat) := by
    exact_mod_cast (Nat.div_add_mod' m (2 ^ s)).symm
  have hmod : m % 2 ^ s < 2 ^ s := Nat.mod_lt _ (by positivity)
  have hcast : ((2 ^ s : Nat) : ℤ) = 2 ^ s := by norm_cast
  rw [roundHalfEven]
  split
  · next h =>
    have hdist : ((m / 2 ^ s + 1 : Nat) * 2 ^ s : ℤ) - m = 2 ^ s - (m % 2 ^ s : Nat) := by
      rw [hdiv]; push_cast; ring
    rw [hdist, abs_of_nonneg (by omega)]
    omega
  · next h =>
    have hdist : ((m / 2 ^ s : Nat) * 2 ^ s : ℤ) - m = -(m % 2 ^ s : Nat) := by
      rw [hdiv]; push_cast; ring
    rw [hdist, abs_neg, Nat.abs_cast]
    omega

theorem roundMag_mul (m k : Nat) :
    roundMag m k * 2 ^ k = roundHalfEven m (droppedBits m k) * 2 ^ droppedBits m k := by
  rw [roundMag, mul_assoc, ← pow_add, Nat.sub_add_cancel (show k ≤ droppedBits m k from Nat.le_max_right _ _)]

theorem lt_pow_droppedBits (m k : Nat) : m < 2 ^ (53 + droppedBits m k) :=
  Nat.lt_log2_self.trans_le (Nat.pow_le_pow_right (by norm_num) (by rw [droppedBits]; omega))

theorem representable_roundMag (m k : Nat) : Representable (roundMag m k) := by
  have hq : m / 2 ^ droppedBits m k < 2 ^ 53 :=
    Nat.div_lt_of_lt_mul (by rw [← pow_add, add_comm]; exact lt_pow_droppedBits m k)
  have hle : roundHalfEven m (droppedBits m k) ≤ 2 ^ 53 := by
    rw [roundHalfEven]
    split <;> omega
  rcases hle.lt_or_eq with hlt | heq
  · exact ⟨_, _, rfl, hlt⟩
  · exact ⟨1, 53 + (droppedBits m k - k), by rw [roundMag, heq, ← pow_add, one_mul], by norm_num⟩

/-- A representable magnitude is a multiple of the unit of the rounding, or smaller than the greatest power of two up to
the exact value, which is such a multiple. -/
theorem representable_cases {c : Nat} (hc : Representable c) (m k : Nat) :
    (∃ j, c = j * 2 ^ (droppedBits m k - k)) ∨
      (c * 2 ^ k < 2 ^ 52 * 2 ^ droppedBits m k ∧ 2 ^ 52 * 2 ^ droppedBits m k ≤ m) := by
  obtain ⟨a, e, rfl, ha⟩ := hc
  by_cases h : droppedBits m k - k ≤ e
  · exact .inl ⟨a * 2 ^ (e - (droppedBits m k - k)), by rw [mul_assoc, ← pow_add, Nat.sub_add_cancel h]⟩
  · have hd : droppedBits m k = m.log2 - 52 ∧ 52 ≤ m.log2 ∧ e + k + 1 ≤ droppedBits m k := by
      rw [droppedBits] at h ⊢
      omega
    refine .inr ⟨?_, ?_⟩
    · calc a * 2 ^ e * 2 ^ k = a * 2 ^ (e + k) := by rw [mul_assoc, ← pow_add]
        _ < 2 ^ 53 * 2 ^ (e + k) := Nat.mul_lt_mul_of_pos_right ha (by positivity)
        _ = 2 ^ 52 * 2 ^ (e + k + 1) := by ring
        _ ≤ 2 ^ 52 * 2 ^ droppedBits m k := Nat.mul_le_mul_left _ (Nat.pow_le_pow_right (by norm_num) hd.2.2)
    · rw [← pow_add, hd.1, Nat.add_sub_cancel' hd.2.1]
      exact Nat.log2_self_le (by rintro rfl; simp at hd)

/-- No multiple of the rounding's unit is nearer; one as near is next to an even result. -/
theorem roundHalfEven_nearest (m s : Nat) (j : ℤ) (hj : j ≠ roundHalfEven m s) :
    |(roundHalfEven m s * 2 ^ s : ℤ) - m| ≤ |j * 2 ^ s - m| ∧
      (|(roundHalfEven m s * 2 ^ s : ℤ) - m| = |j * 2 ^ s - m| →
        2 ∣ roundHalfEven m s ∧ |(roundHalfEven m s : ℤ) - j| = 1) := by
  obtain ⟨hhalf, heven⟩ := roundHalfEven_spec m s
  have hunit : (0 : ℤ) < 2 ^ s := by positivity
  have hdist : |(roundHalfEven m s : ℤ) - j| * 2 ^ s ≤
      |(roundHalfEven m s * 2 ^ s : ℤ) - m| + |j * 2 ^ s - m| := by
    calc |(roundHalfEven m s : ℤ) - j| * 2 ^ s = |(roundHalfEven m s * 2 ^ s : ℤ) - j * 2 ^ s| := by
          rw [← sub_mul, abs_mul, abs_of_pos hunit]
      _ ≤ _ := by rw [abs_sub_comm (j * 2 ^ s)]; exact abs_sub_le _ _ _
  have hone : 1 ≤ |(roundHalfEven m s : ℤ) - j| := Int.one_le_abs (sub_ne_zero.mpr hj.symm)
  have hfar : (2 ^ s : ℤ) ≤ |(roundHalfEven m s : ℤ) - j| * 2 ^ s := le_mul_of_one_le_left hunit.le hone
  refine ⟨by omega, fun heq => ⟨heven (by omega), le_antisymm ?_ hone⟩⟩
  refine le_of_mul_le_mul_right ?_ hunit
  omega

/-- `roundMag` is the representable magnitude nearest to the exact value, in units of 2^-(1074+k). -/
theorem roundMag_nearest {c : Nat} (hc : Representable c) (m k : Nat) :
    |(roundMag m k * 2 ^ k : ℤ) - m| ≤ |(c * 2 ^ k : ℤ) - m| ∧
      (|(roundMag m k * 2 ^ k : ℤ) - m| = |(c * 2 ^ k : ℤ) - m| → c ≠ roundMag m k →
        2 * |(roundMag m k : ℤ) - c| ∣ (roundMag m k : ℤ)) := by
  have hmag : (roundMag m k * 2 ^ k : ℤ) = roundHalfEven m (droppedBits m k) * 2 ^ droppedBits m k := by
    exact_mod_cast roundMag_mul m k
  rw [hmag]
  rcases representable_cases hc m k with ⟨j, rfl⟩ | ⟨hlt, hle⟩
  · have hc' : ((j * 2 ^ (droppedBits m k - k) : Nat) * 2 ^ k : ℤ) = j * 2 ^ droppedBits m k := by
      rw [Nat.cast_mul, Nat.cast_pow, Nat.cast_ofNat, mul_assoc, ← pow_add,
        Nat.sub_add_cancel (show k ≤ droppedBits m k from Nat.le_max_right _ _)]
    rw [hc']
    by_cases hj : (j : ℤ) = roundHalfEven m (droppedBits m k)
    · rw [hj]
      refine ⟨le_rfl, fun _ hne => absurd ?_ hne⟩
      rw [roundMag, Nat.cast_injective hj]
    · obtain ⟨hle, htie⟩ := roundHalfEven_nearest m (droppedBits m k) j hj
      refine ⟨hle, fun heq _ => ?_⟩
      obtain ⟨heven, hnext⟩ := htie heq
      have hgap : (roundMag m k : ℤ) - (j * 2 ^ (droppedBits m k - k) : Nat) =
          ((roundHalfEven m (droppedBits m k) : ℤ) - j) * 2 ^ (droppedBits m k - k) := by
        rw [roundMag]; push_cast; ring
      rw [hgap, abs_mul, hnext, one_mul, abs_of_pos (by positivity), roundMag, Nat.cast_mul, Nat.cast_pow]
      exact mul_dvd_mul_right (Int.natCast_dvd_natCast.mpr heven) _
  · have hfar : |(2 ^ 52 * 2 ^ droppedBits m k : ℤ) - m| < |(c * 2 ^ k : ℤ) - m| := by
      have hlt' : (c * 2 ^ k : ℤ) < 2 ^ 52 * 2 ^ droppedBits m k := by exact_mod_cast hlt
      have hle' : (2 ^ 52 * 2 ^ droppedBits m k : ℤ) ≤ m := by exact_mod_cast hle
      rw [abs_of_nonpos (by omega), abs_of_nonpos (by omega)]
      omega
    have hnear : |(roundHalfEven m (droppedBits m k) * 2 ^ droppedBits m k : ℤ) - m| ≤
        |(2 ^ 52 * 2 ^ droppedBits m k : ℤ) - m| := by
      by_cases h : (2 ^ 52 : ℤ) = roundHalfEven m (droppedBits m k)
      · rw [h]
      · exact (roundHalfEven_nearest m _ _ h).1
    exact ⟨(hnear.trans_lt hfar).le, fun heq => absurd heq (hnear.trans_lt hfar).ne⟩

/-! ### The rounded value as a rational -/

/-- A distance between magnitudes, exact at `k` bits below 2^-1074, as a distance between values. -/
theorem dist_value (a : Nat) (m : ℤ) (k : Nat) :
    |(a : ℚ) / 2 ^ 1074 - m / 2 ^ (1074 + k)| = ((|(a * 2 ^ k : ℤ) - m| : ℤ) : ℚ) / 2 ^ (1074 + k) := by
  have hscale : (a : ℚ) / 2 ^ 1074 = (a * 2 ^ k : ℤ) / 2 ^ (1074 + k) := by
    push_cast
    rw [pow_add, mul_div_mul_right _ _ (by positivity)]
  rw [hscale, ← sub_div, abs_div, abs_of_pos (show (0 : ℚ) < 2 ^ (1074 + k) by positivity)]
  push_cast
  rfl

theorem nearestEven_roundMag (m k : Nat) : NearestEven (roundMag m k) ((m : ℚ) / 2 ^ (1074 + k)) := by
  refine ⟨representable_roundMag m k, fun c hc => ?_⟩
  obtain ⟨hle, htie⟩ := roundMag_nearest hc m k
  have hpos : (0 : ℚ) < 2 ^ (1074 + k) := by positivity
  have hm : (m : ℚ) = (m : ℤ) := by norm_cast
  rw [hm, dist_value, dist_value, div_le_div_iff_of_pos_right hpos, div_left_inj' hpos.ne']
  exact ⟨by exact_mod_cast hle, fun heq => htie (by exact_mod_cast heq)⟩

theorem roundsTo_of_nearest {r : ℚ} {neg : Bool} {m k : Nat} (hnearest : NearestEven (roundMag m k) |r|)
    (hneg : r < 0 → neg = true) (hpos : 0 < r → neg = false) : RoundsTo r (roundNum neg m k) :=
  ⟨neg, roundMag m k, hnearest, hneg, hpos, rfl⟩

/-- A rounded number with the sign of the exact value. -/
theorem roundsTo_roundNum {r : ℚ} {neg : Bool} {m k : Nat} (habs : |r| = (m : ℚ) / 2 ^ (1074 + k))
    (hneg : r < 0 → neg = true) (hpos : 0 < r → neg = false) : RoundsTo r (roundNum neg m k) :=
  roundsTo_of_nearest (habs ▸ nearestEven_roundMag m k) hneg hpos

/-! ### The operations on finite numbers -/

theorem roundMag_zero (k : Nat) : roundMag 0 k = 0 := by simp [roundMag, roundHalfEven]

theorem overflowMag_pos : 0 < overflowMag := by
  unfold overflowMag
  positivity

theorem roundNum_zero (neg : Bool) (k : Nat) : roundNum neg 0 k = .fin neg 0 := by
  rw [roundNum, roundMag_zero, numOfMag, if_pos overflowMag_pos]

/-- A zero of either sign is the rounding of zero. -/
theorem roundsTo_zero (neg : Bool) : RoundsTo 0 (.fin neg 0) := by
  rw [← roundNum_zero neg 0]
  exact roundsTo_roundNum (by simp) (fun h => absurd h (lt_irrefl _)) (fun h => absurd h (lt_irrefl _))

theorem abs_signedMag (neg : Bool) (mag : Nat) : |(signedMag neg mag : ℚ)| = mag := by
  rw [← Int.cast_abs, Int.abs_eq_natAbs, natAbs_signedMag]
  rfl

theorem signedMag_mul (a b : Bool) (m n : Nat) : signedMag (a != b) (m * n) = signedMag a m * signedMag b n := by
  cases a <;> cases b <;> simp [signedMag]

theorem neg_of_signedMag_neg {neg : Bool} {mag : Nat} (h : signedMag neg mag < 0) : neg = true := by
  cases neg with
  | true => rfl
  | false => exact absurd h (Int.not_lt.mpr (Int.natCast_nonneg mag))

theorem pos_of_signedMag_pos {neg : Bool} {mag : Nat} (h : 0 < signedMag neg mag) : neg = false := by
  cases neg with
  | false => rfl
  | true => exact absurd h (Int.not_lt.mpr (Int.neg_nonpos_of_nonneg (Int.natCast_nonneg mag)))

/-- A signed magnitude, exact at `k` bits below 2^-1074, rounded with its sign. -/
theorem roundsTo_signedMag (neg : Bool) (m k : Nat) :
    RoundsTo ((signedMag neg m : ℚ) / 2 ^ (1074 + k)) (roundNum neg m k) := by
  have hpos : (0 : ℚ) < 2 ^ (1074 + k) := by positivity
  refine roundsTo_roundNum ?_ (fun h => ?_) (fun h => ?_)
  · rw [abs_div, abs_signedMag, abs_of_pos hpos]
  · exact neg_of_signedMag_neg (by exact_mod_cast neg_of_div_neg_left h hpos.le)
  · exact pos_of_signedMag_pos (by exact_mod_cast (div_pos_iff_of_pos_right hpos).mp h)

section
variable {a b : Machine.Num} {p q : ℚ} (ha : numValue a = some p) (hb : numValue b = some q)
include ha hb

theorem roundsTo_fmul : RoundsTo (p * q) (fmul a b) := by
  obtain ⟨x, m, rfl, rfl⟩ := exists_fin_of_numValue ha
  obtain ⟨y, n, rfl, rfl⟩ := exists_fin_of_numValue hb
  have hvalue : (signedMag x m : ℚ) / 2 ^ 1074 * (signedMag y n / 2 ^ 1074) =
      (signedMag (x != y) (m * n) : ℚ) / 2 ^ (1074 + 1074) := by
    rw [signedMag_mul, Int.cast_mul, pow_add, div_mul_div_comm]
  rw [hvalue]
  exact roundsTo_signedMag _ _ _

theorem roundsTo_fadd : RoundsTo (p + q) (fadd a b) := by
  obtain ⟨x, m, rfl, rfl⟩ := exists_fin_of_numValue ha
  obtain ⟨y, n, rfl, rfl⟩ := exists_fin_of_numValue hb
  rw [fadd, ← add_div, ← Int.cast_add]
  generalize signedMag x m + signedMag y n = v
  split
  · next h => rw [h, Int.cast_zero, zero_div]; exact roundsTo_zero _
  · next h =>
    have hv : (v : ℚ) = signedMag (decide (v < 0)) v.natAbs := by
      refine congrArg Int.cast ?_
      by_cases hneg : v < 0
      · rw [signedMag, decide_eq_true hneg, if_pos rfl]
        omega
      · rw [signedMag, decide_eq_false hneg, if_neg Bool.false_ne_true]
        omega
    rw [hv]
    exact roundsTo_signedMag _ _ 0

theorem fgt_iff : fgt a b = true ↔ q < p := by
  obtain ⟨x, m, rfl, rfl⟩ := exists_fin_of_numValue ha
  obtain ⟨y, n, rfl, rfl⟩ := exists_fin_of_numValue hb
  rw [fgt, decide_eq_true_iff, div_lt_div_iff_of_pos_right (by positivity), Int.cast_lt]

end

theorem numValue_fneg {b : Machine.Num} {q : ℚ} (hb : numValue b = some q) : numValue (fneg b) = some (-q) := by
  obtain ⟨y, n, rfl, rfl⟩ := exists_fin_of_numValue hb
  rw [fneg, numValue_fin, ← neg_div, ← Int.cast_neg]
  cases y <;> simp [signedMag]

theorem roundsTo_fsub {a b : Machine.Num} {p q : ℚ} (ha : numValue a = some p) (hb : numValue b = some q) :
    RoundsTo (p - q) (fsub a b) := by
  rw [sub_eq_add_neg]
  exact roundsTo_fadd ha (numValue_fneg hb)

/-! ### The quotient of a literal -/

/-- Of two multiples of 4 the one not farther from the odd `2 s + 1` is nearer to every number between `2 s` and
`2 s + 2`. -/
theorem nearer_of_odd {a c s : ℤ} {x : ℚ} (hlo : (2 * s : ℤ) < x) (hhi : x < (2 * s + 2 : ℤ)) (hac : a ≠ c)
    (hle : |4 * a - (2 * s + 1)| ≤ |4 * c - (2 * s + 1)|) : |(4 * a : ℤ) - x| < |(4 * c : ℤ) - x| := by
  obtain ⟨hlower, hupper⟩ := abs_le.mp hle
  have hsum : (a < c ∧ s + 1 ≤ a + c) ∨ (c < a ∧ a + c ≤ s) := by
    rcases lt_or_gt_of_ne hac with h | h <;> rcases abs_cases (4 * c - (2 * s + 1)) with ⟨hc, -⟩ | ⟨hc, -⟩ <;>
      rw [hc] at hlower hupper <;> omega
  push_cast at hlo hhi ⊢
  rcases hsum with ⟨hac, hsum⟩ | ⟨hac, hsum⟩
  · have hac' : (a : ℚ) + 1 ≤ c := by exact_mod_cast hac
    have hsum' : (s : ℚ) + 1 ≤ a + c := by exact_mod_cast hsum
    rw [abs_of_pos (show (0 : ℚ) < 4 * c - x by linarith)]
    exact abs_lt.mpr ⟨by linarith, by linarith⟩
  · have hac' : (c : ℚ) + 1 ≤ a := by exact_mod_cast hac
    have hsum' : (a : ℚ) + c ≤ s := by exact_mod_cast hsum
    rw [abs_of_neg (show 4 * (c : ℚ) - x < 0 by linarith)]
    exact abs_lt.mpr ⟨by linarith, by linarith⟩

/-- An odd magnitude stands for every number next to it: none of the thresholds between representable magnitudes is odd
where at least two bits are dropped. -/
theorem nearestEven_of_odd {s k : Nat} {r : ℚ} (hlo : (2 * s : ℚ) / 2 ^ (1074 + (k + 2)) < r)
    (hhi : r < (2 * s + 2 : ℚ) / 2 ^ (1074 + (k + 2))) : NearestEven (roundMag (2 * s + 1) (k + 2)) r := by
  have hpos : (0 : ℚ) < 2 ^ (1074 + (k + 2)) := by positivity
  have hdist (n : Nat) : |(n : ℚ) / 2 ^ 1074 - r| =
      |((4 * (n * 2 ^ k) : ℤ) : ℚ) - r * 2 ^ (1074 + (k + 2))| / 2 ^ (1074 + (k + 2)) := by
    rw [← abs_of_pos hpos, ← abs_div, abs_of_pos hpos, sub_div, mul_div_cancel_right₀ _ hpos.ne']
    congr 2
    rw [show (2 : ℚ) ^ (1074 + (k + 2)) = 2 ^ 1074 * (4 * 2 ^ k) by
        rw [pow_add, pow_add, mul_comm ((2 : ℚ) ^ k), show (2 : ℚ) ^ 2 = 4 by norm_num],
      div_eq_div_iff (by positivity) (by positivity)]
    generalize (2 : ℚ) ^ 1074 = u
    push_cast
    ring
  refine ⟨representable_roundMag _ _, fun c hc => ?_⟩
  by_cases hne : c = roundMag (2 * s + 1) (k + 2)
  · exact ⟨by rw [hne], fun _ h => absurd hne h⟩
  · have hle := (roundMag_nearest hc (2 * s + 1) (k + 2)).1
    have hlt := nearer_of_odd (s := s) (a := roundMag (2 * s + 1) (k + 2) * 2 ^ k) (c := c * 2 ^ k)
      (x := r * 2 ^ (1074 + (k + 2))) ?_ ?_ ?_ ?_
    · rw [hdist, hdist, div_le_div_iff_of_pos_right hpos, div_left_inj' hpos.ne']
      exact ⟨hlt.le, fun h => absurd h hlt.ne⟩
    · exact_mod_cast (div_lt_iff₀ hpos).mp hlo
    · exact_mod_cast (lt_div_iff₀ hpos).mp hhi
    · exact fun h => hne (Nat.eq_of_mul_eq_mul_right (Nat.two_pow_pos k) (by exact_mod_cast h.symm))
    · have hfour (n : Nat) : (4 * (n * 2 ^ k) : ℤ) = n * 2 ^ (k + 2) := by ring
      rw [hfour, hfour]
      exact_mod_cast hle

theorem litNum_eq (p q : Nat) : litNum p q =
    roundNum false (2 * (p * 2 ^ 1200 / q) + if p * 2 ^ 1200 % q = 0 then 0 else 1) 127 := rfl

theorem roundsTo_litNum (p : Nat) {q : Nat} (hq : 0 < q) : RoundsTo ((p : ℚ) / q) (litNum p q) := by
  have hq' : (0 : ℚ) < q := by exact_mod_cast hq
  have hnonneg : (0 : ℚ) ≤ (p : ℚ) / q := by positivity
  have hunit : (2 : ℚ) ^ (1074 + 127) = 2 * 2 ^ 1200 := pow_succ' 2 1200
  have hdiv : ((p * 2 ^ 1200 : Nat) : ℚ) = q * (p * 2 ^ 1200 / q : Nat) + (p * 2 ^ 1200 % q : Nat) := by
    rw [← Nat.cast_mul, ← Nat.cast_add, Nat.div_add_mod]
  have hmod : ((p * 2 ^ 1200 % q : Nat) : ℚ) < q := by exact_mod_cast Nat.mod_lt _ hq
  rw [Nat.cast_mul, Nat.cast_pow, Nat.cast_ofNat] at hdiv
  have hpow : (0 : ℚ) < 2 ^ 1200 := by positivity
  rw [litNum_eq]
  generalize (2 : ℚ) ^ 1200 = u at *
  generalize p * 2 ^ 1200 / q = t at *
  generalize p * 2 ^ 1200 % q = rem at *
  by_cases hrem : rem = 0
  · subst hrem
    rw [if_pos rfl]
    refine roundsTo_roundNum ?_ (fun h => absurd h (not_lt.mpr hnonneg)) (fun _ => rfl)
    rw [abs_of_nonneg hnonneg, hunit, div_eq_div_iff hq'.ne' (by positivity)]
    push_cast at hdiv ⊢
    linarith
  · rw [if_neg hrem]
    have hrem' : (0 : ℚ) < rem := by exact_mod_cast Nat.pos_of_ne_zero hrem
    refine roundsTo_of_nearest ?_ (fun h => absurd h (not_lt.mpr hnonneg)) (fun _ => rfl)
    rw [abs_of_nonneg hnonneg]
    refine nearestEven_of_odd (k := 125) ?_ ?_
    · rw [hunit, div_lt_div_iff₀ (by positivity) hq']
      linarith
    · rw [hunit, div_lt_div_iff₀ hq' (by positivity)]
      linarith

/-! ### The whole claim -/

theorem numValue_numOfNat (n : Nat) : numValue (numOfNat n) = some (n : ℚ) := by
  rw [numOfNat, numValue_fin, signedMag, if_neg Bool.false_ne_true, Int.cast_natCast, ← natUnits, natUnits_value]

theorem fmul_zero_left (x y : Bool) (n : Nat) : fmul (.fin x 0) (.fin y n) = .fin (x != y) 0 := by
  rw [fmul, Nat.zero_mul, roundNum_zero]

theorem fmul_zero_right (x y : Bool) (n : Nat) : fmul (.fin x n) (.fin y 0) = .fin (x != y) 0 := by
  rw [fmul, Nat.mul_zero, roundNum_zero]

theorem fadd_zero (x y : Bool) : fadd (.fin x 0) (.fin y 0) = .fin (x && y) 0 := by
  cases x <;> cases y <;> simp [fadd, signedMag]

/-- An exact difference of zero is +0. -/
theorem fsub_self (x : Bool) (n : Nat) : fsub (.fin x n) (.fin x n) = .fin false 0 := by
  cases x <;> simp [fsub, fneg, fadd, signedMag]

/-- Settles O38: `roundMag` is nearest (`roundMag_nearest`), and each operation rounds its exact result once. -/
theorem roundingIsNearestEven : Obligations.RoundingIsNearestEven :=
  ⟨fun m k => ⟨representable_roundMag m k, fun _ hc => roundMag_nearest hc m k⟩,
    fun _ _ _ _ ha hb => ⟨roundsTo_fmul ha hb, roundsTo_fadd ha hb, roundsTo_fsub ha hb, fgt_iff ha hb⟩,
    fun p _ hq => roundsTo_litNum p hq,
    fun n hn => ⟨⟨n, 1074, rfl, hn⟩, numValue_numOfNat n⟩,
    fun x y n => ⟨fmul_zero_left x y n, fmul_zero_right x y n, fadd_zero x y, fun _ => fsub_self x n⟩⟩

end Sys2Proof.Proofs

/-! The 64 bits of a binary64 (30_encoding sections 5 and 6, decision D5). -/

namespace Sys2Proof.Proofs
open Sys2Proof Sys2Proof.Machine Sys2Proof.Laws

/-! ### A word by its sign, exponent field and fraction field -/

theorem toNat_append_add {m n : Nat} (x : BitVec m) (y : BitVec n) : (x ++ y).toNat = x.toNat * 2 ^ n + y.toNat := by
  rw [BitVec.toNat_append, ← Nat.shiftLeft_add_eq_or_of_lt y.isLt, Nat.shiftLeft_eq]

/-- The word of a sign, an exponent field and a fraction field. -/
def fieldsWord (neg : Bool) (e f : Nat) : Arg := BitVec.ofBool neg ++ BitVec.ofNat 63 (e * 2 ^ 52 + f)

theorem fieldsWord_toNat {neg : Bool} {e f : Nat} (he : e < 2 ^ 11) (hf : f < 2 ^ 52) :
    (fieldsWord neg e f).toNat = neg.toNat * 2 ^ 63 + e * 2 ^ 52 + f := by
  have hlt : e * 2 ^ 52 + f < 2 ^ 63 := by omega
  rw [fieldsWord, toNat_append_add, BitVec.toNat_ofNat, Nat.mod_eq_of_lt hlt, BitVec.toNat_ofBool, Nat.add_assoc]

theorem fieldsWord_msb (neg : Bool) (e f : Nat) : (fieldsWord neg e f).msb = neg := by
  rw [fieldsWord, BitVec.msb_append]
  cases neg <;> rfl

theorem fieldsWord_fields {neg : Bool} {e f : Nat} (he : e < 2 ^ 11) (hf : f < 2 ^ 52) :
    ((fieldsWord neg e f).extractLsb' 52 11).toNat = e ∧ ((fieldsWord neg e f).extractLsb' 0 52).toNat = f := by
  rw [BitVec.extractLsb'_toNat, BitVec.extractLsb'_toNat, fieldsWord_toNat he hf, Nat.shiftRight_eq_div_pow,
    Nat.shiftRight_eq_div_pow]
  cases neg <;> simp only [Bool.toNat_true, Bool.toNat_false] <;> omega

theorem exists_fields (w : Arg) : ∃ e f, e < 2 ^ 11 ∧ f < 2 ^ 52 ∧ w = fieldsWord w.msb e f := by
  refine ⟨(w.extractLsb' 52 11).toNat, (w.extractLsb' 0 52).toNat, BitVec.isLt _, BitVec.isLt _, ?_⟩
  apply BitVec.eq_of_toNat_eq
  rw [fieldsWord_toNat (BitVec.isLt _) (BitVec.isLt _), BitVec.extractLsb'_toNat, BitVec.extractLsb'_toNat,
    Nat.shiftRight_eq_div_pow, Nat.shiftRight_eq_div_pow, BitVec.msb_eq_decide]
  have hw := w.isLt
  by_cases h : 2 ^ 63 ≤ w.toNat
  · simp only [h, decide_true, Bool.toNat_true]
    omega
  · simp only [h, decide_false, Bool.toNat_false]
    omega

/-- The number of a word, by its fields. -/
theorem numOfBits_fieldsWord {neg : Bool} {e f : Nat} (he : e < 2 ^ 11) (hf : f < 2 ^ 52) :
    numOfBits (fieldsWord neg e f) =
      if e = 2047 then (if f = 0 then .inf neg else .nan)
      else if e = 0 then .fin neg f
      else .fin neg ((2 ^ 52 + f) * 2 ^ (e - 1)) := by
  obtain ⟨hexp, hfrac⟩ := fieldsWord_fields (neg := neg) he hf
  rw [numOfBits, hexp, hfrac, fieldsWord_msb]

/-! ### A magnitude by its exponent and fraction -/

/-- A representable magnitude is a fraction below 2^52, or a significand of 53 bits, shifted. -/
theorem representable_iff_fields {mag : Nat} :
    Representable mag ↔ mag < 2 ^ 52 ∨ ∃ f e, f < 2 ^ 52 ∧ mag = (2 ^ 52 + f) * 2 ^ e := by
  constructor
  · rintro ⟨a, e, rfl, ha⟩
    refine or_iff_not_imp_left.mpr fun hlarge => ?_
    have hne : a * 2 ^ e ≠ 0 := by omega
    obtain ⟨j, hj⟩ := Nat.exists_eq_add_of_le ((Nat.le_log2 hne).mpr (Nat.not_lt.mp hlarge))
    obtain ⟨hlo, hhi⟩ := (Nat.log2_eq_iff hne).mp hj
    have hje : j ≤ e := by
      by_contra hlt
      have : a * 2 ^ e < 2 ^ (52 + j) := calc
        a * 2 ^ e < 2 ^ 53 * 2 ^ e := Nat.mul_lt_mul_of_pos_right ha (Nat.two_pow_pos e)
        _ = 2 ^ (52 + (e + 1)) := by ring
        _ ≤ 2 ^ (52 + j) := Nat.pow_le_pow_right (by norm_num) (by omega)
      omega
    have hsplit : a * 2 ^ e = a * 2 ^ (e - j) * 2 ^ j := by rw [mul_assoc, ← pow_add, Nat.sub_add_cancel hje]
    rw [hsplit, pow_add] at hlo
    rw [hsplit, show 52 + j + 1 = 53 + j by ring, pow_add] at hhi
    have hlo' := Nat.le_of_mul_le_mul_right hlo (Nat.two_pow_pos j)
    have hhi' := Nat.lt_of_mul_lt_mul_right hhi
    exact ⟨a * 2 ^ (e - j) - 2 ^ 52, j, by omega, by rw [hsplit, Nat.add_sub_cancel' hlo']⟩
  · rintro (h | ⟨f, e, hf, rfl⟩)
    · exact ⟨mag, 0, by simp, by omega⟩
    · exact ⟨2 ^ 52 + f, e, rfl, by omega⟩

theorem magBits_fraction {f : Nat} (hf : f < 2 ^ 52) : magBits f = f := by
  have hlog : f.log2 - 52 = 0 := by
    by_cases h : f = 0
    · simp [h]
    · have := (Nat.log2_lt h).mpr hf
      omega
  simp [magBits, hlog]

theorem log2_significand {f : Nat} (hf : f < 2 ^ 52) (e : Nat) : ((2 ^ 52 + f) * 2 ^ e).log2 = 52 + e := by
  rw [Nat.log2_eq_iff (by positivity), pow_add, show 52 + e + 1 = 53 + e by ring, pow_add]
  exact ⟨Nat.mul_le_mul_right _ (by omega), Nat.mul_lt_mul_of_pos_right (by omega) (Nat.two_pow_pos e)⟩

theorem magBits_significand {f : Nat} (hf : f < 2 ^ 52) (e : Nat) :
    magBits ((2 ^ 52 + f) * 2 ^ e) = (e + 1) * 2 ^ 52 + f := by
  rw [magBits, log2_significand hf, Nat.add_sub_cancel_left, Nat.mul_div_cancel _ (Nat.two_pow_pos e)]
  ring

theorem significand_lt_overflow_iff {f : Nat} (hf : f < 2 ^ 52) (e : Nat) :
    (2 ^ 52 + f) * 2 ^ e < overflowMag ↔ e < 2046 := by
  have hne : (2 ^ 52 + f) * 2 ^ e ≠ 0 := by positivity
  rw [overflowMag, ← Nat.log2_lt hne, log2_significand hf]
  omega

theorem fraction_lt_overflow {f : Nat} (hf : f < 2 ^ 52) : f < overflowMag := by
  have hle (k : Nat) (hk : 52 ≤ k) : f < 2 ^ k := hf.trans_le (Nat.pow_le_pow_right (by norm_num) hk)
  exact hle 2098 (by norm_num)

/-! ### Words and numbers -/

theorem numBits_fraction (o : Arg) (neg : Bool) {f : Nat} (hf : f < 2 ^ 52) :
    numBits o (.fin neg f) = fieldsWord neg 0 f := by
  rw [numBits, magBits_fraction hf, fieldsWord, Nat.zero_mul, Nat.zero_add]

theorem numBits_significand (o : Arg) (neg : Bool) {f : Nat} (hf : f < 2 ^ 52) (e : Nat) :
    numBits o (.fin neg ((2 ^ 52 + f) * 2 ^ e)) = fieldsWord neg (e + 1) f := by
  rw [numBits, magBits_significand hf, fieldsWord]

theorem numBits_inf (o : Arg) (neg : Bool) : numBits o (.inf neg) = fieldsWord neg 2047 0 := rfl

theorem append_fields (neg : Bool) (fraction : BitVec 52) :
    BitVec.ofBool neg ++ 0x7FF#11 ++ fraction = fieldsWord neg 2047 fraction.toNat := by
  apply BitVec.eq_of_toNat_eq
  rw [fieldsWord_toNat (by norm_num) fraction.isLt, toNat_append_add, toNat_append_add, BitVec.toNat_ofBool,
    BitVec.toNat_ofNat]
  omega

theorem numOfBits_nanWord (free : BitVec 53) : numOfBits (nanWord free) = .nan := by
  obtain ⟨neg, hneg⟩ : ∃ neg, free.extractLsb' 52 1 = BitVec.ofBool neg :=
    (by decide : ∀ x : BitVec 1, ∃ neg, x = BitVec.ofBool neg) _
  rw [nanWord, hneg, append_fields, numOfBits_fieldsWord (by norm_num) (BitVec.isLt _), if_pos rfl, if_neg]
  split
  · decide
  · next h => exact fun h0 => h (BitVec.eq_of_toNat_eq h0)

/-- Settles O40: by the fields of the word, or of the magnitude. -/
theorem numberBitsRoundTrip : Obligations.NumberBitsRoundTrip := by
  refine ⟨fun o neg mag hrep hlt => ?number, fun o neg => ?inf, fun o => numOfBits_nanWord _, fun o w hw => ?word⟩
  case number =>
    rcases representable_iff_fields.mp hrep with hf | ⟨f, e, hf, rfl⟩
    · rw [numBits_fraction o neg hf, numOfBits_fieldsWord (by norm_num) hf]
      rfl
    · have he := (significand_lt_overflow_iff hf e).mp hlt
      rw [numBits_significand o neg hf, numOfBits_fieldsWord (by omega) hf, if_neg (by omega), if_neg (by omega),
        Nat.add_sub_cancel]
  case inf =>
    rw [numBits_inf, numOfBits_fieldsWord (by norm_num) (by norm_num), if_pos rfl, if_pos rfl]
  case word =>
    obtain ⟨e, f, he, hf, hfields⟩ := exists_fields w
    generalize w.msb = neg at hfields
    subst hfields
    rw [numOfBits_fieldsWord he hf] at hw ⊢
    by_cases hspecial : e = 2047
    · subst hspecial
      rw [if_pos rfl] at hw ⊢
      by_cases hzero : f = 0
      · subst hzero
        rw [if_pos rfl, numBits_inf]
      · rw [if_neg hzero] at hw
        exact absurd rfl hw
    · rw [if_neg hspecial]
      cases e with
      | zero => rw [if_pos rfl, numBits_fraction o neg hf]
      | succ e => rw [if_neg (Nat.succ_ne_zero e), Nat.add_sub_cancel, numBits_significand o neg hf]

/-- The number of a word is a binary64: 53 significant bits, below overflow. -/
theorem numOfBits_fin {w : Arg} {neg : Bool} {mag : Nat} (h : numOfBits w = .fin neg mag) :
    Representable mag ∧ mag < overflowMag := by
  obtain ⟨e, f, he, hf, hfields⟩ := exists_fields w
  rw [hfields, numOfBits_fieldsWord he hf] at h
  by_cases hspecial : e = 2047
  · rw [if_pos hspecial] at h
    split at h <;> cases h
  · rw [if_neg hspecial] at h
    cases e with
    | zero =>
      cases h
      exact ⟨representable_iff_fields.mpr (.inl hf), fraction_lt_overflow hf⟩
    | succ e =>
      cases h
      exact ⟨representable_iff_fields.mpr (.inr ⟨f, e, hf, rfl⟩), (significand_lt_overflow_iff hf e).mpr (by omega)⟩

end Sys2Proof.Proofs

/-! The power and its allowed answers (00_scope R8, decision D6, log 5). -/

namespace Sys2Proof.Proofs
open Sys2Proof Sys2Proof.Machine Sys2Proof.Laws

/-! ### Within one unit in the last place -/

/-- A distance in units of 2^-(1074+k), compared with a power of two. -/
theorem dist_le_pow_iff (c m : ℤ) (k : Nat) (e : ℤ) :
    |(c : ℚ) / 2 ^ 1074 - m / 2 ^ (1074 + k)| ≤ 2 ^ e ↔
      ((|c * 2 ^ k - m| : ℤ) : ℚ) ≤ 2 ^ (e + (1074 + k : Nat)) := by
  have hpos : (0 : ℚ) < 2 ^ (1074 + k) := by positivity
  have hscale : (c : ℚ) / 2 ^ 1074 = (c * 2 ^ k : ℤ) / 2 ^ (1074 + k) := by
    rw [Int.cast_mul, Int.cast_pow, Int.cast_ofNat, pow_add, mul_div_mul_right _ _ (by positivity)]
  rw [hscale, ← sub_div, abs_div, abs_of_pos hpos, div_le_iff₀ hpos, ← Int.cast_sub, ← Int.cast_abs,
    zpow_add₀ two_ne_zero, zpow_natCast]

/-- `withinUlp` is `WithinUlp` of the values. -/
theorem withinUlp_iff (c m : ℤ) (k : Nat) :
    withinUlp c m k = true ↔ WithinUlp ((c : ℚ) / 2 ^ 1074) ((m : ℚ) / 2 ^ (1074 + k)) := by
  have hpos : (0 : ℚ) < 2 ^ (1074 + k) := by positivity
  have hcast : ((c * 2 ^ k - m).natAbs : ℤ) = |c * 2 ^ k - m| := Int.natCast_natAbs _
  have hdist : (c * 2 ^ k - m).natAbs ≤ 2 ^ droppedBits m.natAbs k ↔
      ((|c * 2 ^ k - m| : ℤ) : ℚ) ≤ 2 ^ (droppedBits m.natAbs k : ℤ) := by
    rw [← hcast, zpow_natCast]
    norm_cast
  have hreach (e : ℤ) : (2 : ℚ) ^ e ≤ |(m : ℚ) / 2 ^ (1074 + k)| ↔ (2 : ℚ) ^ (e + (1074 + k : Nat)) ≤ m.natAbs := by
    rw [abs_div, abs_of_pos hpos, le_div_iff₀ hpos, zpow_add₀ two_ne_zero, zpow_natCast, Nat.cast_natAbs, Int.cast_abs]
  rw [withinUlp, decide_eq_true_iff, hdist, WithinUlp, dist_le_pow_iff]
  simp only [hreach, dist_le_pow_iff]
  constructor
  · intro h
    rcases le_total (m.natAbs.log2 - 52) k with hk | hk
    · refine .inl ?_
      rwa [droppedBits, max_eq_right hk, show (k : ℤ) = -1074 + (1074 + k : Nat) by omega] at h
    · rw [droppedBits, max_eq_left hk] at h
      by_cases hlarge : m.natAbs.log2 ≤ 52
      · refine .inl ?_
        rwa [show ((m.natAbs.log2 - 52 : Nat) : ℤ) = -1074 + (1074 + k : Nat) by omega] at h
      · have hne : m.natAbs ≠ 0 := by
          intro hzero
          simp [hzero] at hlarge
        refine .inr ⟨m.natAbs.log2 - (1074 + k : Nat), ?_, ?_⟩
        · rw [sub_add_cancel, zpow_natCast]
          exact_mod_cast Nat.log2_self_le hne
        · rwa [show (m.natAbs.log2 : ℤ) - (1074 + k : Nat) - 52 + (1074 + k : Nat) =
            (m.natAbs.log2 - 52 : Nat) by omega]
  · have hk : k ≤ droppedBits m.natAbs k := Nat.le_max_right _ _
    rintro (h | ⟨e, he, h⟩)
    · exact h.trans (zpow_le_zpow_right₀ one_le_two (by omega))
    · have hlt : ((m.natAbs : Nat) : ℚ) < 2 ^ ((53 + droppedBits m.natAbs k : Nat) : ℤ) := by
        rw [zpow_natCast]
        exact_mod_cast lt_pow_droppedBits m.natAbs k
      have hexp := (zpow_lt_zpow_iff_right₀ (one_lt_two (α := ℚ))).mp (he.trans_lt hlt)
      exact h.trans (zpow_le_zpow_right₀ one_le_two (by omega))

/-- A rounded magnitude is within one unit in the last place. -/
theorem withinUlp_roundMag (neg : Bool) (m k : Nat) :
    withinUlp (signedMag neg (roundMag m k)) (signedMag neg m) k = true := by
  obtain ⟨hhalf, -⟩ := roundHalfEven_spec m (droppedBits m k)
  have hmag : (roundMag m k * 2 ^ k : ℤ) = roundHalfEven m (droppedBits m k) * 2 ^ droppedBits m k := by
    exact_mod_cast roundMag_mul m k
  rw [← hmag] at hhalf
  have habs : (signedMag neg (roundMag m k) * 2 ^ k - signedMag neg m).natAbs =
      (roundMag m k * 2 ^ k - m : ℤ).natAbs := by
    cases neg with
    | false => rfl
    | true =>
      rw [← Int.natAbs_neg]
      congr 1
      simp only [signedMag, if_true]
      ring
  rw [withinUlp, decide_eq_true_iff, habs, natAbs_signedMag]
  zify
  linarith [abs_nonneg ((roundMag m k : ℤ) * 2 ^ k - m)]

/-! ### The exact power and its allowed answers -/

theorem cappedValue_eq (x : Machine.Num) : cappedValue x = (cappedMag x).map fun c : ℤ => (c : ℚ) / 2 ^ 1074 := by
  have hover : ((overflowMag : Nat) : ℚ) / 2 ^ 1074 = 2 ^ 1024 := by
    rw [overflowMag, Nat.cast_pow, Nat.cast_ofNat, div_eq_iff (by positivity), ← pow_add]
  cases x with
  | nan => rfl
  | fin neg mag => exact numValue_fin neg mag
  | inf neg =>
    rw [cappedValue, ← hover, cappedMag, Option.map_some]
    generalize overflowMag = m
    generalize (2 : ℚ) ^ 1074 = u
    cases neg <;> simp [signedMag, neg_div]

theorem signedMag_pow (neg : Bool) (mag n : Nat) : signedMag (powSign neg n) (mag ^ n) = signedMag neg mag ^ n := by
  cases neg with
  | false => simp [signedMag, powSign]
  | true =>
    rcases Nat.even_or_odd n with h | h
    · simp [signedMag, powSign, h.neg_pow, Nat.even_iff.mp h]
    · simp [signedMag, powSign, h.neg_pow, Nat.odd_iff.mp h]

/-- The exact power of `±mag · 2^-1074`. -/
def exactPow (neg : Bool) (mag n : Nat) : ℚ :=
  (signedMag (powSign neg n) (mag ^ n) : ℚ) / 2 ^ (1074 + 1074 * (n - 1))

theorem exactPow_eq (neg : Bool) (mag : Nat) {n : Nat} (hn : n ∈ [2, 3, 4]) :
    ((signedMag neg mag : ℚ) / 2 ^ 1074) ^ n = exactPow neg mag n := by
  have hsign : (signedMag neg mag : ℚ) ^ n = signedMag (powSign neg n) (mag ^ n) := by
    rw [signedMag_pow, Int.cast_pow]
  have hunits : 1074 * n = 1074 + 1074 * (n - 1) := by
    simp only [List.mem_cons, List.not_mem_nil, or_false] at hn
    omega
  rw [exactPow, div_pow, hsign, ← pow_mul, hunits]

theorem exactPow_neg_iff (neg : Bool) (mag n : Nat) :
    exactPow neg mag n < 0 ↔ signedMag (powSign neg n) (mag ^ n) < 0 := by
  rw [exactPow, div_lt_iff₀ (by positivity), zero_mul, Int.cast_lt_zero]

theorem powAllowed_iff {y : Machine.Num} {neg : Bool} {mag n : Nat} :
    powAllowed y neg mag n = true ↔ ∃ v, cappedValue y = some v ∧ WithinUlp v (exactPow neg mag n) := by
  rw [powAllowed, cappedValue_eq]
  cases cappedMag y with
  | none => simp
  | some c => simpa [exactPow] using withinUlp_iff c _ _

theorem roundsTo_powNearest (neg : Bool) (mag n : Nat) : RoundsTo (exactPow neg mag n) (powNearest neg mag n) :=
  roundsTo_signedMag _ _ _

/-- The power of a finite number: what is listed where it is allowed, else the nearest number. -/
theorem fpow_cases (p : Params) (neg : Bool) (mag n : Nat) :
    (∃ y, powListed p (.fin neg mag) n = some y ∧ powAllowed y neg mag n = true ∧ fpow p (.fin neg mag) n = y) ∨
      ((∀ y, powListed p (.fin neg mag) n = some y → powAllowed y neg mag n = false) ∧
        fpow p (.fin neg mag) n = powNearest neg mag n) := by
  rw [fpow]
  cases powListed p (.fin neg mag) n with
  | none => exact .inr ⟨nofun, rfl⟩
  | some y =>
    cases hallowed : powAllowed y neg mag n with
    | true => exact .inl ⟨y, rfl, hallowed, if_pos hallowed⟩
    | false => exact .inr ⟨fun z hz => Option.some.inj hz ▸ hallowed, if_neg (by simp [hallowed])⟩

theorem exists_word_of_powListed {p : Params} {x y : Machine.Num} {n : Nat} (h : powListed p x n = some y) :
    ∃ a, y = numOfBits a := by
  obtain ⟨d, -, rfl⟩ := Option.map_eq_some_iff.mp h
  exact ⟨d.answer, rfl⟩

/-- The nearest number is an infinity only of a power that is not zero, with its sign. -/
theorem powNearest_inf {neg sign : Bool} {mag n : Nat} (h : powNearest neg mag n = .inf sign) :
    sign = powSign neg n ∧ mag ^ n ≠ 0 := by
  rw [powNearest, roundNum, numOfMag] at h
  split at h
  · cases h
  · next hover =>
    cases h
    refine ⟨rfl, fun hzero => hover ?_⟩
    rw [hzero, roundMag_zero]
    exact overflowMag_pos

theorem pow_droppedBits_le (m k : Nat) : 2 ^ droppedBits m k ≤ m + 2 ^ k := by
  rcases le_total (m.log2 - 52) k with h | h
  · rw [droppedBits, max_eq_right h]
    exact Nat.le_add_left _ _
  · rw [droppedBits, max_eq_left h]
    by_cases hm : m = 0
    · subst hm
      simpa using Nat.one_le_two_pow
    · calc 2 ^ (m.log2 - 52) ≤ 2 ^ m.log2 := Nat.pow_le_pow_right (by norm_num) (Nat.sub_le _ _)
        _ ≤ m := Nat.log2_self_le hm
        _ ≤ m + 2 ^ k := Nat.le_add_right _ _

theorem signedMag_mul_nat (neg : Bool) (m c : Nat) : signedMag neg m * (c : ℤ) = signedMag neg (m * c) := by
  cases neg <;> simp [signedMag]

/-- An infinity is within one unit only of a value of its sign. -/
theorem sign_of_withinUlp_overflow {neg : Bool} {m : ℤ} {k : Nat}
    (h : withinUlp (signedMag neg overflowMag) m k = true) : neg = true ↔ m < 0 := by
  have hle := (of_decide_eq_true h).trans (pow_droppedBits_le m.natAbs k)
  have hover : 2 ^ k < overflowMag * 2 ^ k :=
    lt_mul_of_one_lt_left (Nat.two_pow_pos k) (fraction_lt_overflow (f := 1) (by norm_num))
  rw [← Nat.cast_ofNat, ← Nat.cast_pow, signedMag_mul_nat] at hle
  generalize overflowMag * 2 ^ k = far at hle hover
  generalize 2 ^ k = unit at hle hover
  cases neg with
  | true =>
    rw [signedMag, if_pos rfl] at hle
    exact ⟨fun _ => by omega, fun _ => rfl⟩
  | false =>
    rw [signedMag, if_neg Bool.false_ne_true] at hle
    exact ⟨nofun, fun _ => by omega⟩

/-! ### The answers of `fpow` -/

section
variable {p : Params} {neg : Bool} {mag n : Nat}

/-- A finite answer is a binary64 within one unit. -/
theorem fpow_fin {sign : Bool} {answer : Nat} (h : fpow p (.fin neg mag) n = .fin sign answer) :
    Representable answer ∧ answer < overflowMag ∧
      ∃ v, numValue (fpow p (.fin neg mag) n) = some v ∧ WithinUlp v (exactPow neg mag n) := by
  rw [h]
  rcases fpow_cases p neg mag n with ⟨y, hlisted, hallowed, hy⟩ | ⟨-, hy⟩ <;> rw [h] at hy
  · subst hy
    obtain ⟨a, ha⟩ := exists_word_of_powListed hlisted
    obtain ⟨hrep, hlt⟩ := numOfBits_fin ha.symm
    exact ⟨hrep, hlt, powAllowed_iff.mp hallowed⟩
  · rw [powNearest, roundNum, numOfMag] at hy
    split at hy
    · next hlt =>
      cases hy
      exact ⟨representable_roundMag _ _, hlt, _, numValue_fin _ _,
        (withinUlp_iff _ _ _).mp (withinUlp_roundMag (powSign neg n) (mag ^ n) (1074 * (n - 1)))⟩
    · cases hy

/-- An infinite answer has the sign of the exact power, and is its rounding or within one unit. -/
theorem fpow_inf {sign : Bool} (h : fpow p (.fin neg mag) n = .inf sign) :
    (sign = true ↔ exactPow neg mag n < 0) ∧ (RoundsTo (exactPow neg mag n) (.inf sign) ∨
      WithinUlp (if sign then -2 ^ 1024 else 2 ^ 1024) (exactPow neg mag n)) := by
  rw [exactPow_neg_iff]
  rcases fpow_cases p neg mag n with ⟨y, -, hallowed, hy⟩ | ⟨-, hy⟩ <;> rw [h] at hy
  · subst hy
    obtain ⟨v, hv, hwithin⟩ := powAllowed_iff.mp hallowed
    have hv' : v = if sign then -2 ^ 1024 else 2 ^ 1024 := by
      cases sign <;> simpa [cappedValue] using hv.symm
    exact ⟨sign_of_withinUlp_overflow hallowed, .inr (hv' ▸ hwithin)⟩
  · obtain ⟨rfl, hne⟩ := powNearest_inf hy.symm
    refine ⟨?_, .inl (hy ▸ roundsTo_powNearest neg mag n)⟩
    have hpos : (0 : ℤ) < (mag ^ n : Nat) := by exact_mod_cast Nat.pos_of_ne_zero hne
    cases powSign neg n with
    | true => exact ⟨fun _ => Int.neg_neg_of_pos hpos, fun _ => rfl⟩
    | false => exact ⟨nofun, fun hlt => absurd hlt (Int.not_lt.mpr hpos.le)⟩

theorem fpow_ne_nan : fpow p (.fin neg mag) n ≠ .nan := by
  rcases fpow_cases p neg mag n with ⟨y, -, hallowed, hy⟩ | ⟨-, hy⟩ <;> rw [hy]
  · rintro rfl
    cases hallowed
  · rw [powNearest, roundNum, numOfMag]
    split <;> nofun

/-- What is listed within one unit is the answer. -/
theorem fpow_of_listed {y : Machine.Num} {v : ℚ} (hlisted : powListed p (.fin neg mag) n = some y)
    (hv : cappedValue y = some v) (hwithin : WithinUlp v (exactPow neg mag n)) : fpow p (.fin neg mag) n = y := by
  have hallowed := powAllowed_iff.mpr ⟨v, hv, hwithin⟩
  rcases fpow_cases p neg mag n with ⟨z, hz, -, hfpow⟩ | ⟨hnot, -⟩
  · rw [hfpow]
    exact Option.some.inj (hz.symm.trans hlisted)
  · exact absurd hallowed (by simp [hnot y hlisted])

/-- With nothing listed within one unit the answer is the nearest number. -/
theorem fpow_of_not_listed (hnot : ∀ y v, powListed p (.fin neg mag) n = some y → cappedValue y = some v →
    ¬WithinUlp v (exactPow neg mag n)) : RoundsTo (exactPow neg mag n) (fpow p (.fin neg mag) n) := by
  rcases fpow_cases p neg mag n with ⟨y, hlisted, hallowed, -⟩ | ⟨-, hy⟩
  · obtain ⟨v, hv, hwithin⟩ := powAllowed_iff.mp hallowed
    exact absurd hwithin (hnot y v hlisted hv)
  · rw [hy]
    exact roundsTo_powNearest neg mag n

end

theorem powListed_head (p : Params) (x : Machine.Num) (n : Nat) (a : Arg) :
    powListed { p with powDev := ⟨numBits 0#64 x, n, a⟩ :: p.powDev } x n = some (numOfBits a) := by
  rw [powListed, List.find?_cons_of_pos (by simp)]
  rfl

/-- Settles O39: by what the parameter lists and whether it is allowed (`fpow_cases`). -/
theorem powerIsWithinOneUlp : Obligations.PowerIsWithinOneUlp := by
  intro p x q n hx hn
  obtain ⟨neg, mag, rfl, rfl⟩ := exists_fin_of_numValue hx
  rw [exactPow_eq neg mag hn]
  exact ⟨fun _ _ h => fpow_fin h, fun _ h => fpow_inf h, fpow_ne_nan, fun _ _ => fpow_of_listed, fpow_of_not_listed,
    fun a v => fpow_of_listed (powListed_head p _ n a)⟩

end Sys2Proof.Proofs

/-! Lux values (42_illuminance_ops R170 to R174): the scales are exact, and RAW2LUX stays finite. -/

namespace Sys2Proof.Proofs
open Sys2Proof Sys2Proof.Machine Sys2Proof.Laws

/-! ### Powers of two -/

theorem gainRatio_eq (g : Gain) : gainRatio g = 2 ^ gainExponent g := by cases g <;> rfl

theorem itRatio_eq (t : IntegrationTime) : itRatio t = 2 ^ itExponent t := by cases t <;> rfl

/-- A representable magnitude is its own rounding. -/
theorem roundMag_of_representable {mag : Nat} (h : Representable mag) (k : Nat) : roundMag (mag * 2 ^ k) k = mag := by
  have hle := (roundMag_nearest h (mag * 2 ^ k) k).1
  have hcast : ((mag * 2 ^ k : Nat) : ℤ) = mag * 2 ^ k := by push_cast; rfl
  rw [hcast, sub_self, abs_zero, abs_nonpos_iff, sub_eq_zero] at hle
  exact Nat.eq_of_mul_eq_mul_right (Nat.two_pow_pos k) (by exact_mod_cast hle)

theorem representable_mul_pow {mag : Nat} (h : Representable mag) (i : Nat) : Representable (mag * 2 ^ i) := by
  obtain ⟨a, e, rfl, ha⟩ := h
  exact ⟨a, e + i, by rw [pow_add, mul_assoc], ha⟩

/-- A product with a power of two is exact. -/
theorem fmul_pow {neg : Bool} {mag : Nat} (h : Representable mag) (i : Nat) :
    fmul (.fin neg mag) (numOfNat (2 ^ i)) = numOfMag neg (mag * 2 ^ i) := by
  rw [numOfNat, fmul, Bool.bne_false, roundNum, ← mul_assoc, roundMag_of_representable (representable_mul_pow h i)]

/-- A base of a representable magnitude, scaled: exact, and an infinity at 2^1024 and above. -/
theorem scaledLux_eq {b : Arg} {d : DeviceState} {neg : Bool} {mag : Nat} (hb : numOfBits b = .fin neg mag) :
    scaledLux b d = numOfMag neg (mag * 2 ^ (gainExponent d.gain + itExponent d.it)) := by
  have hrep := (numOfBits_fin hb).1
  rw [scaledLux, hb, gainRatio_eq, itRatio_eq, fmul_pow hrep, pow_add, ← mul_assoc]
  by_cases hlt : mag * 2 ^ gainExponent d.gain < overflowMag
  · rw [numOfMag, if_pos hlt, fmul_pow (representable_mul_pow hrep _)]
  · rw [numOfMag, if_neg hlt, numOfMag, if_neg, numOfNat, fmul, if_neg (by positivity), Bool.bne_false]
    exact fun h => hlt ((Nat.le_mul_of_pos_right _ (Nat.two_pow_pos _)).trans_lt h)

/-- LUX.RES and LUX.OVF answer their scaled base. -/
theorem exec_scaledLux {s : State} (hs : s.seq = .idle) {i : Instr} {b : Arg}
    (hi : (i, b) ∈ [(Instr.luxRes, s.cfg.maxResolutionLux), (.luxOvf, s.cfg.minOverflowLux)]) :
    exec i s = .next (s.answered .ok (numBits 0#64 (scaledLux b s.dev))) := by
  simp only [List.mem_cons, List.not_mem_nil, or_false, Prod.mk.injEq] at hi
  rcases hi with ⟨rfl, rfl⟩ | ⟨rfl, rfl⟩ <;> exact exec_eq_answered rfl hs rfl

/-- A positive number is a positive magnitude. -/
theorem exists_mag_of_pos {x : Machine.Num} {v : ℚ} (hx : numValue x = some v) (hv : 0 < v) :
    ∃ mag : Nat, x = .fin false mag ∧ v = (mag : ℚ) / 2 ^ 1074 := by
  obtain ⟨neg, mag, rfl, rfl⟩ := exists_fin_of_numValue hx
  have hpos : 0 < signedMag neg mag := by
    by_contra hle
    have hle' : (signedMag neg mag : ℚ) ≤ 0 := by exact_mod_cast Int.not_lt.mp hle
    exact absurd hv (not_lt.mpr (div_nonpos_of_nonpos_of_nonneg hle' (by positivity)))
  cases pos_of_signedMag_pos hpos
  exact ⟨mag, rfl, by rw [signedMag, if_neg Bool.false_ne_true, Int.cast_natCast]⟩

theorem overflow_value : ((overflowMag : Nat) : ℚ) = 2 ^ 1024 * 2 ^ 1074 := by
  rw [overflowMag, Nat.cast_pow, Nat.cast_ofNat, ← pow_add]

/-- A scaled magnitude against 2^1024. -/
theorem lt_overflow_iff (mag e : Nat) : (mag : ℚ) / 2 ^ 1074 * 2 ^ e < 2 ^ 1024 ↔ mag * 2 ^ e < overflowMag := by
  rw [← Nat.cast_lt (α := ℚ), overflow_value, ← div_lt_iff₀ (by positivity), Nat.cast_mul, Nat.cast_pow,
    Nat.cast_ofNat, mul_div_right_comm]

/-- A word of exponent field `e` and the power `k` added to it. -/
theorem fieldsWord_add {e f k : Nat} (he : e + k < 2 ^ 11) (hf : f < 2 ^ 52) :
    fieldsWord false e f + BitVec.ofNat 64 (k * 2 ^ 52) = fieldsWord false (e + k) f := by
  apply BitVec.eq_of_toNat_eq
  rw [BitVec.toNat_add, fieldsWord_toNat (by omega) hf, fieldsWord_toNat he hf, BitVec.toNat_ofNat, Bool.toNat_false]
  omega

/-- Settles O32: the scaled base is exact or past the range (`scaledLux_eq`); in the word of a normal base the exponent
field takes up the power. -/
theorem luxScalesAreExact : Obligations.LuxScalesAreExact := by
  refine ⟨decode_commandWord 0x40#8 argN, decode_commandWord 0x41#8 argN, fun g t => ?scale, fun s hs i b e hi he =>
    ⟨fun v hv hpos => ?value, fun hsign hnormal hlt => ?word⟩⟩
  case scale => cases g <;> cases t <;> norm_num [gainExponent, itExponent, gainValue, gainEighths, itMillis]
  case value =>
    obtain ⟨mag, hb, rfl⟩ := exists_mag_of_pos hv hpos
    rw [exec_scaledLux hs hi, scaledLux_eq hb, he, numOfMag]
    refine ⟨fun hlt => ?_, fun hle => ?_⟩
    · have hlt' := (lt_overflow_iff mag e).mp hlt
      refine ⟨_, rfl, ?_⟩
      rw [if_pos hlt', numberBitsRoundTrip.1 _ _ _ (representable_mul_pow (numOfBits_fin hb).1 e) hlt', numValue_fin,
        signedMag, if_neg Bool.false_ne_true]
      push_cast
      rw [mul_div_right_comm]
    · rw [if_neg fun h => absurd ((lt_overflow_iff mag e).mpr h) (not_lt.mpr hle)]
      rfl
  case word =>
    obtain ⟨x, f, hx, hf, hfields⟩ := exists_fields b
    rw [hsign] at hfields
    subst hfields
    rw [(fieldsWord_fields hx hf).1] at hnormal hlt
    obtain ⟨x, rfl⟩ := Nat.exists_eq_add_of_le' hnormal
    have hnum : numOfBits (fieldsWord false (x + 1) f) = .fin false ((2 ^ 52 + f) * 2 ^ x) := by
      rw [numOfBits_fieldsWord hx hf, if_neg (by omega), if_neg (by omega), Nat.add_sub_cancel]
    rw [exec_scaledLux hs hi, scaledLux_eq hnum, he, mul_assoc, ← pow_add, numOfMag,
      if_pos ((significand_lt_overflow_iff hf _).mpr (by omega)), numBits_significand _ _ hf,
      fieldsWord_add (by omega) hf, Nat.add_right_comm]

/-! ### Bounds along the quartic -/

/-- A binary64 of magnitude at most `2^b` units of 2^-1074. -/
def Bounded (b : Nat) (x : Machine.Num) : Prop := ∃ neg mag, x = .fin neg mag ∧ Representable mag ∧ mag ≤ 2 ^ b

theorem Bounded.numFinite {b : Nat} {x : Machine.Num} (h : Bounded b x) : numFinite x = true := by
  obtain ⟨neg, mag, rfl, -⟩ := h
  rfl

theorem Bounded.lt_overflow {b mag : Nat} (hb : b < 2098) (h : mag ≤ 2 ^ b) : mag < overflowMag := by
  have hlt (k : Nat) (hk : b < k) : mag < 2 ^ k := h.trans_lt (Nat.pow_lt_pow_right (by norm_num) hk)
  exact hlt 2098 hb

theorem bounded_numOfMag (neg : Bool) {mag b : Nat} (hb : b < 2098) (hrep : Representable mag) (h : mag ≤ 2 ^ b) :
    Bounded b (numOfMag neg mag) := by
  rw [numOfMag, if_pos (Bounded.lt_overflow hb h)]
  exact ⟨neg, mag, rfl, hrep, h⟩

/-- The word of a bounded number reads back as a finite number. -/
theorem Bounded.numFinite_word {b : Nat} {x : Machine.Num} (hb : b < 2098) (h : Bounded b x) (o : Arg) :
    Machine.numFinite (numOfBits (numBits o x)) = true := by
  obtain ⟨neg, mag, rfl, hrep, hle⟩ := h
  rw [numberBitsRoundTrip.1 o neg mag hrep (Bounded.lt_overflow hb hle)]
  rfl

/-- A power of two is representable, so rounding does not pass it. -/
theorem roundMag_le {m k b : Nat} (h : m ≤ 2 ^ (b + k)) : roundMag m k ≤ 2 ^ b := by
  have hrep : Representable (2 ^ b) := ⟨1, b, (one_mul _).symm, by norm_num⟩
  have hle := (roundMag_nearest hrep m k).1
  have hm : (m : ℤ) ≤ (2 ^ b : Nat) * 2 ^ k := by
    rw [pow_add] at h
    exact_mod_cast h
  by_contra hlt
  have hgt : ((2 ^ b : Nat) * 2 ^ k : ℤ) < roundMag m k * 2 ^ k := by
    exact_mod_cast Nat.mul_lt_mul_of_pos_right (Nat.not_le.mp hlt) (Nat.two_pow_pos k)
  rw [abs_of_nonneg (by linarith), abs_of_nonneg (by linarith)] at hle
  linarith

theorem bounded_roundNum (neg : Bool) {m k b : Nat} (hb : b < 2098) (h : m ≤ 2 ^ (b + k)) :
    Bounded b (roundNum neg m k) :=
  bounded_numOfMag neg hb (representable_roundMag m k) (roundMag_le h)

section
variable {a b c : Nat} {x y : Machine.Num}

theorem Bounded.fmul (hx : Bounded a x) (hy : Bounded b y) (hc : c < 2098) (h : a + b ≤ c + 1074) :
    Bounded c (fmul x y) := by
  obtain ⟨s, m, rfl, -, hm⟩ := hx
  obtain ⟨t, n, rfl, -, hn⟩ := hy
  refine bounded_roundNum _ hc ?_
  calc m * n ≤ 2 ^ a * 2 ^ b := Nat.mul_le_mul hm hn
    _ = 2 ^ (a + b) := (pow_add 2 a b).symm
    _ ≤ 2 ^ (c + 1074) := Nat.pow_le_pow_right (by norm_num) h

theorem Bounded.fadd (hx : Bounded a x) (hy : Bounded b y) (hc : c + 1 < 2098) (ha : a ≤ c) (hb : b ≤ c) :
    Bounded (c + 1) (fadd x y) := by
  obtain ⟨s, m, rfl, -, hm⟩ := hx
  obtain ⟨t, n, rfl, -, hn⟩ := hy
  have hm' := hm.trans (Nat.pow_le_pow_right (by norm_num) ha)
  have hn' := hn.trans (Nat.pow_le_pow_right (by norm_num) hb)
  have hs := natAbs_signedMag s m
  have ht := natAbs_signedMag t n
  rw [Machine.fadd]
  split
  · exact ⟨_, 0, rfl, ⟨0, 0, rfl, by norm_num⟩, Nat.zero_le _⟩
  · refine bounded_roundNum _ hc ?_
    rw [Nat.add_zero, pow_succ]
    omega

theorem Bounded.fsub (hx : Bounded a x) (hy : Bounded b y) (hc : c + 1 < 2098) (ha : a ≤ c) (hb : b ≤ c) :
    Bounded (c + 1) (fsub x y) := by
  obtain ⟨t, n, rfl, hn⟩ := hy
  exact hx.fadd (y := .fin (!t) n) ⟨_, n, rfl, hn⟩ hc ha hb

/-- The default power. -/
theorem Bounded.fpow {p : Params} (hp : p.powDev = []) (hx : Bounded a x) {n : Nat} (hc : c < 2098)
    (h : a * n ≤ c + 1074 * (n - 1)) : Bounded c (fpow p x n) := by
  obtain ⟨s, m, rfl, -, hm⟩ := hx
  have hlisted : powListed p (.fin s m) n = none := by simp [powListed, hp]
  rw [Machine.fpow, hlisted]
  refine bounded_roundNum _ hc ?_
  calc m ^ n ≤ (2 ^ a) ^ n := Nat.pow_le_pow_left hm n
    _ = 2 ^ (a * n) := (pow_mul 2 a n).symm
    _ ≤ 2 ^ (c + 1074 * (n - 1)) := Nat.pow_le_pow_right (by norm_num) h

end

theorem quotient_le {p q : Nat} (h : p < 2 * q) (k : Nat) :
    2 * (p * 2 ^ k / q) + (if p * 2 ^ k % q = 0 then 0 else 1) ≤ 2 ^ (k + 2) := by
  have hdiv : p * 2 ^ k / q < 2 * 2 ^ k := by
    refine Nat.div_lt_of_lt_mul ?_
    calc p * 2 ^ k < 2 * q * 2 ^ k := Nat.mul_lt_mul_of_pos_right h (Nat.two_pow_pos k)
      _ = q * (2 * 2 ^ k) := by ring
  rw [pow_add]
  split <;> omega

/-- A literal below 2. -/
theorem bounded_litNum {p q : Nat} (h : p < 2 * q) : Bounded 1075 (litNum p q) := by
  have hexp : 1075 + 127 = 1200 + 2 := rfl
  rw [litNum_eq]
  refine bounded_roundNum false (by norm_num) ?_
  rw [hexp]
  exact quotient_le h 1200

theorem bounded_coefficient4 : Bounded 1075 coefficient4 := bounded_litNum (by norm_num)

theorem bounded_coefficient3 : Bounded 1075 coefficient3 := bounded_litNum (by norm_num)

theorem bounded_coefficient2 : Bounded 1075 coefficient2 := bounded_litNum (by norm_num)

theorem bounded_coefficient1 : Bounded 1075 coefficient1 := bounded_litNum (by norm_num)

/-- Up to 2^17 the quartic is far from the range's end. -/
theorem bounded_quartic {p : Params} (hp : p.powDev = []) {x : Machine.Num} (hx : Bounded 1091 x) :
    Bounded 1146 (quartic p x) := by
  have hpow {n : Nat} (hn : 1091 * n ≤ 1142 + 1074 * (n - 1)) : Bounded 1142 (fpow p x n) :=
    hx.fpow hp (by norm_num) hn
  have h4 : Bounded 1143 (fmul coefficient4 (fpow p x 4)) :=
    bounded_coefficient4.fmul (hpow (by norm_num)) (by norm_num) (by norm_num)
  have h3 : Bounded 1143 (fmul coefficient3 (fpow p x 3)) :=
    bounded_coefficient3.fmul (hpow (by norm_num)) (by norm_num) (by norm_num)
  have h2 : Bounded 1143 (fmul coefficient2 (fpow p x 2)) :=
    bounded_coefficient2.fmul (hpow (by norm_num)) (by norm_num) (by norm_num)
  have h1 : Bounded 1143 (fmul coefficient1 x) := bounded_coefficient1.fmul hx (by norm_num) (by norm_num)
  have hcubic := h4.fsub h3 (c := 1143) (by norm_num) le_rfl le_rfl
  have hsquare := hcubic.fadd h2 (c := 1144) (by norm_num) (by norm_num) (by norm_num)
  rw [quartic]
  exact hsquare.fadd h1 (c := 1145) (by norm_num) (by norm_num) (by norm_num)

/-- The default resolution at every setting is below 2. -/
theorem bounded_luxResolution {p : Params} (hp : p.maxResolutionLux = defaultParams.maxResolutionLux)
    (d : DeviceState) : Bounded 1075 (luxResolution p d) := by
  have hword : defaultParams.maxResolutionLux = fieldsWord false (1013 + 1) 0xD7DBF487FCB92 := by decide
  have hfrac : (0xD7DBF487FCB92 : Nat) < 2 ^ 52 := by norm_num
  have hnum : numOfBits p.maxResolutionLux = .fin false ((2 ^ 52 + 0xD7DBF487FCB92) * 2 ^ 1013) := by
    rw [hp, hword, numOfBits_fieldsWord (by norm_num) hfrac, if_neg (by norm_num), if_neg (by norm_num),
      Nat.add_sub_cancel]
  have hexp : gainExponent d.gain + itExponent d.it ≤ 9 := by
    cases d.gain <;> cases d.it <;> decide
  rw [luxResolution, scaledLux_eq hnum]
  refine bounded_numOfMag false (by norm_num) (representable_mul_pow (numOfBits_fin hnum).1 _) ?_
  generalize gainExponent d.gain + itExponent d.it = e at hexp
  calc (2 ^ 52 + 0xD7DBF487FCB92) * 2 ^ 1013 * 2 ^ e ≤ 2 ^ 53 * 2 ^ 1013 * 2 ^ 9 :=
        Nat.mul_le_mul (Nat.mul_le_mul_right _ (by norm_num)) (Nat.pow_le_pow_right (by norm_num) hexp)
    _ = 2 ^ 1075 := by rw [← pow_add, ← pow_add]

theorem bounded_count (w : Word) : Bounded 1090 (numOfNat w.toNat) :=
  ⟨false, _, rfl, ⟨w.toNat, 1074, rfl, by omega⟩, by
    rw [show 1090 = 16 + 1074 from rfl, pow_add]
    exact Nat.mul_le_mul_right _ w.isLt.le⟩

/-- Settles O35: the product is at most 2^17, and so the quartic is finite too. -/
theorem rawToLuxNeverFails : Obligations.RawToLuxNeverFails := by
  intro s w hs hbase hpow
  have hx : Bounded 1091 (fmul (numOfNat w.toNat) (luxResolution s.cfg s.dev)) :=
    (bounded_count w).fmul (bounded_luxResolution hbase s.dev) (by norm_num) (by norm_num)
  obtain ⟨hlow, hhigh, -⟩ := rawToLux.2 s w _ hs rfl
  cases hgt : fgt (fmul (numOfNat w.toNat) (luxResolution s.cfg s.dev)) (litNum 100 1) with
  | false => exact ⟨_, hlow hgt, hx.numFinite_word (by norm_num) _⟩
  | true => exact ⟨_, hhigh hgt hx.numFinite, (bounded_quartic hpow hx).numFinite_word (by norm_num) _⟩

end Sys2Proof.Proofs
